-- ==== Sys2Proof/Word.lean ====
section
/-! DEFINITION. The word types of the hardware (spec 30 R45, R48; 10 R17, R20, R24 to R26) and the two one-bit
signs the spec names with words. -/

namespace Sys2Proof

/-- A byte: a GF(256) element, a payload byte, an opcode (10 R17). -/
abbrev Byte := BitVec 8

/-- A 16-bit operand or result field (30 R46, R48). -/
abbrev Half := BitVec 16

/-- A 32-bit command or response word (30 R45, R48). -/
abbrev Word := BitVec 32

/-- A 10-bit 8b10b codeword, right-justified (10 R24). -/
abbrev Symbol := BitVec 10

/-- A sample: the two's complement pattern of a signed 16-bit amplitude (10 R25, 20 R34). -/
abbrev Sample := BitVec 16

/-- Running disparity RD: 0 is negative, 1 is positive (10 R20). -/
inductive Disparity where
  | neg
  | pos
  deriving DecidableEq, Repr

/-- The other disparity, the spec's `1 - rd` (42 R74, R76). -/
def Disparity.flip : Disparity → Disparity
  | .neg => .pos
  | .pos => .neg

/-- The disparity as the bit STATUS shows (10 R20, R28). -/
def Disparity.bit : Disparity → Bool
  | .neg => false
  | .pos => true

/-- PHASE, the sign the BPSK carrier is multiplied by (10 R26). -/
inductive Phase where
  | plus
  | minus
  deriving DecidableEq, Repr

/-- Negation of PHASE, a phase reversal (45 R99). -/
def Phase.flip : Phase → Phase
  | .plus => .minus
  | .minus => .plus

/-- PHASE as a number, +1 or -1 (10 R26). -/
def Phase.sign : Phase → Int
  | .plus => 1
  | .minus => -1

end Sys2Proof
end

