-- ==== Sys2Proof/Config.lean ====
section
/-! DEFINITION. What is fixed for the life of the hardware and is no state (spec 00 R6 to R9, 10 R16): the fixed
constants, the parameters the spec lets a model take as an argument, what it requires of them, and the three free
functions of the modulator, which have no body because the spec gives them no value. -/

namespace Sys2Proof

namespace Config

/-- NN, the order of the multiplicative group and the length of a full codeword (00 R6). -/
def groupOrder : Nat := 255

/-- KK, the largest number of bytes one parity bank accepts after a reset (00 R6). -/
def bankCapacity : Nat := 223

/-- A0, the value of log(0) (00 R6, 40 R54). -/
def sentinel : Byte := 255

/-- HDR_MAX, the bytes of the header buffer (00 R6). -/
def headerBytes : Nat := 6

/-- The end-of-frame marker of the line encoder (42 R76; decision D14). -/
def eofMarker : Half := 0xFFFF

/-- FREE VALUE behind CARRIER (00 R9, 45 R102: the spec gives the carrier no values). `Machine.carrier` shifts it
into the range the spec states. -/
opaque carrierChoice : Nat → Fin 65535

/-- FREE VALUE behind TONE (00 R9, 45 R102): any 16-bit sample for every bit and sample index. -/
opaque toneChoice : Bool → Nat → Sample

/-- FREE VALUE behind RAMP (00 R9, 45 R102). `Machine.ramp` bounds it by the magnitude of the sample. -/
opaque rampChoice : Int → Nat → Nat → Nat

end Config

/-- The parameters of the model: sizes (00 R7), constant tables (00 R8) and the numeric functions of the modulator
(00 R9). They are no state: no command writes them and reset does not change them (10 R16). -/
structure Params where
  /-- N_MAX, the number of parity banks that exist (00 R7). -/
  nMax : Nat
  /-- PAY_MAX, the bytes of the payload buffer (00 R7). -/
  payMax : Nat
  /-- SMP_MAX, the samples of the sample buffer (00 R7). -/
  smpMax : Nat
  /-- LOG (40 R54). -/
  log : Byte → Byte
  /-- ALOG (40 R55). -/
  alog : Byte → Byte
  /-- GEN, the generator's coefficients in index form (41 R62). -/
  gen : Nat → Byte
  /-- ENCTAB: codeword and next disparity (42 R72). -/
  encTab : Disparity → Byte → Symbol × Disparity
  /-- CARRIER (00 R9). -/
  carrier : Nat → Int
  /-- TONE (00 R9); the bit 1 is `true`. -/
  tone : Bool → Nat → Int
  /-- RAMP of a sample value, a distance and a smoothing length (00 R9). -/
  ramp : Int → Nat → Nat → Int

/-- WB_MAX (00 R7). -/
def Params.wbMax (P : Params) : Nat := P.nMax * Config.bankCapacity

/-- SYM_MAX (00 R7). -/
def Params.symMax (P : Params) : Nat := P.nMax * Config.groupOrder

/-- What the spec requires of the parameters: the ranges of 00 R7, the table properties of 40 R54, R55 and 41 R62,
and the bounds of 00 R9. -/
structure Params.Valid (P : Params) : Prop where
  nMax_range : 1 ≤ P.nMax ∧ P.nMax ≤ 8
  payMax_range : 1 ≤ P.payMax ∧ P.payMax ≤ 4096
  smpMax_range : 1 ≤ P.smpMax ∧ P.smpMax ≤ 2 ^ 23
  log_zero : P.log 0 = Config.sentinel
  log_exponent : ∀ x, x ≠ 0 → P.log x ≠ Config.sentinel
  alog_log : ∀ x, P.alog (P.log x) = x
  log_alog : ∀ e, e ≠ Config.sentinel → P.log (P.alog e) = e
  alog_zero : P.alog 0 = 1
  gen_ends : P.gen 0 = 0 ∧ P.gen 32 = 0
  gen_palindrome : ∀ j, j ≤ 32 → P.gen j = P.gen (32 - j)
  gen_exponent : ∀ j, j ≤ 32 → P.gen j ≠ Config.sentinel
  carrier_range : ∀ n, -32767 ≤ P.carrier n ∧ P.carrier n ≤ 32767
  tone_range : ∀ b n, -32768 ≤ P.tone b n ∧ P.tone b n ≤ 32767
  ramp_sign : ∀ v j S, 1 ≤ j → j ≤ S → P.ramp v j S = 0 ∨ (P.ramp v j S).sign = v.sign
  ramp_shrinks : ∀ v j S, 1 ≤ j → j ≤ S → (P.ramp v j S).natAbs ≤ v.natAbs

end Sys2Proof
end

