-- ==== Sys2Proof/Syntax.lean ====
section
/-! DEFINITION. The commands: one constructor per row of the opcode map (spec 30 R49), each operand at the width of
its field (30 R46, R47). -/

namespace Sys2Proof

/-- A command with its operands. Every operand is the unsigned value of its field (30 R47). -/
inductive Instr where
  /-- NOP (46 R106). -/
  | nop
  /-- CFG_RD reg (46 R107). -/
  | cfgRd (reg : BitVec 8)
  /-- CFG_WR reg, val (46 R108). -/
  | cfgWr (reg : BitVec 8) (val : BitVec 16)
  /-- GF_LOG v (40 R58). -/
  | gfLog (v : BitVec 16)
  /-- GF_ALOG v (40 R59). -/
  | gfAlog (v : BitVec 16)
  /-- GF_MODEXP v (40 R60). -/
  | gfModexp (v : BitVec 16)
  /-- RS_RESET s (41 R65). -/
  | rsReset (b : BitVec 3)
  /-- RS_UPDATE s, v (41 R66). -/
  | rsUpdate (b : BitVec 3) (v : BitVec 16)
  /-- RS_RD s, i (41 R67). -/
  | rsRd (b : BitVec 3) (i : BitVec 5)
  /-- ENC.EOF, the word of ENC with v = 0xFFFF (42 R76). -/
  | encEof
  /-- ENC v (42 R75). -/
  | enc (v : BitVec 16)
  /-- HDR_WR i, b (43 R80). -/
  | hdrWr (i : BitVec 12) (b : BitVec 8)
  /-- HDR_RD i (43 R81). -/
  | hdrRd (i : BitVec 24)
  /-- PAY_WR i, b (43 R82). -/
  | payWr (i : BitVec 12) (b : BitVec 8)
  /-- PAY_RD i (43 R83). -/
  | payRd (i : BitVec 24)
  /-- HDR_PACK (43 R85). -/
  | hdrPack
  /-- PAY_PACK_A i, v (43 R86). -/
  | payPackA (i : BitVec 12) (v : BitVec 12)
  /-- PAY_PACK_B i, v (43 R87). -/
  | payPackB (i : BitVec 12) (v : BitVec 12)
  /-- BUF_CLR (43 R84). -/
  | bufClr
  /-- FRAME_ENC (43 R89). -/
  | frameEnc
  /-- WB_RD i (43 R93). -/
  | wbRd (i : BitVec 24)
  /-- SYM_BUILD (44 R94). -/
  | symBuild
  /-- SYM_RD i (44 R96). -/
  | symRd (i : BitVec 24)
  /-- MOD_RUN (45 R99). -/
  | modRun
  /-- SMP_RD i (45 R104). -/
  | smpRd (i : BitVec 24)
  /-- SMP_RDB i (45 R105). -/
  | smpRdb (i : BitVec 24)
  deriving DecidableEq, Repr

end Sys2Proof
end

