-- ==== Sys2Proof/WellFormed.lean ====
section
/-! DEFINITION. Well-formed commands. Every operand has the width of its field, so the one check left is that ENC does
not carry the end-of-frame marker, whose word is ENC.EOF's (spec 30 R49, R53). -/

namespace Sys2Proof

/-- Whether the term is the reading of some command word. -/
def Instr.wf : Instr → Bool
  | .nop => true
  | .cfgRd _ => true
  | .cfgWr _ _ => true
  | .gfLog _ => true
  | .gfAlog _ => true
  | .gfModexp _ => true
  | .rsReset _ => true
  | .rsUpdate _ _ => true
  | .rsRd _ _ => true
  | .encEof => true
  | .enc v => v != Config.eofMarker
  | .hdrWr _ _ => true
  | .hdrRd _ => true
  | .payWr _ _ => true
  | .payRd _ => true
  | .hdrPack => true
  | .payPackA _ _ => true
  | .payPackB _ _ => true
  | .bufClr => true
  | .frameEnc => true
  | .wbRd _ => true
  | .symBuild => true
  | .symRd _ => true
  | .modRun => true
  | .smpRd _ => true
  | .smpRdb _ => true

end Sys2Proof
end

