-- ==== Sys2Proof/Decode.lean ====
section
/-! DEFINITION. The decoder and the encoder of command words (spec 30 R45 to R50), the assembler
syntax of a command (30 R52, R53), and the opcode map as data (30 R49).
A word is decoded in the same way in every state (30 R51). -/

namespace Sys2Proof

/-- Why a word is no command (30 R50). Who raises it: the decoder; the machine then answers E_ILLEGAL_OP. -/
inductive IllegalWord where
  /-- The opcode byte is none of the 25. -/
  | unassignedOpcode (op : Byte)
  /-- A bit that the opcode's format reserves as 0 is 1. -/
  | reservedBitSet (op : Byte)
  deriving DecidableEq, Repr

/-- C[31:24] (30 R45). -/
def opcodeOf (c : Word) : Byte := c.extractLsb' 24 8

/-- `v` when the reserved bits are zero, an illegal word otherwise (30 R50). -/
def whenZero {α : Type} (c : Word) (reservedAreZero : Bool) (v : α) : Except IllegalWord α :=
  if reservedAreZero then .ok v else .error (.reservedBitSet (opcodeOf c))

/-- Format Z: no operands (30 R46). -/
def formatZ (c : Word) (i : Instr) : Except IllegalWord Instr :=
  whenZero c (c.extractLsb' 0 24 == 0) i

/-- Format R: a register number (30 R46). -/
def formatR (c : Word) (f : BitVec 8 → Instr) : Except IllegalWord Instr :=
  whenZero c (c.extractLsb' 0 16 == 0) (f (c.extractLsb' 16 8))

/-- Format RV: a register number and a value (30 R46). -/
def formatRV (c : Word) (f : BitVec 8 → BitVec 16 → Instr) : Except IllegalWord Instr :=
  .ok (f (c.extractLsb' 16 8) (c.extractLsb' 0 16))

/-- Format V: a 16-bit value (30 R46). -/
def formatV (c : Word) (f : BitVec 16 → Instr) : Except IllegalWord Instr :=
  whenZero c (c.extractLsb' 16 8 == 0) (f (c.extractLsb' 0 16))

/-- Format S: a bank number (30 R46). -/
def formatS (c : Word) (f : BitVec 3 → Instr) : Except IllegalWord Instr :=
  whenZero c (c.extractLsb' 19 5 == 0 && c.extractLsb' 0 16 == 0) (f (c.extractLsb' 16 3))

/-- Format SV: a bank number and a value (30 R46). -/
def formatSV (c : Word) (f : BitVec 3 → BitVec 16 → Instr) : Except IllegalWord Instr :=
  whenZero c (c.extractLsb' 19 5 == 0) (f (c.extractLsb' 16 3) (c.extractLsb' 0 16))

/-- Format SI: a bank number and a byte index (30 R46). -/
def formatSI (c : Word) (f : BitVec 3 → BitVec 5 → Instr) : Except IllegalWord Instr :=
  whenZero c (c.extractLsb' 19 5 == 0 && c.extractLsb' 5 11 == 0)
    (f (c.extractLsb' 16 3) (c.extractLsb' 0 5))

/-- Format IB: a 12-bit index and a byte (30 R46). -/
def formatIB (c : Word) (f : BitVec 12 → BitVec 8 → Instr) : Except IllegalWord Instr :=
  whenZero c (c.extractLsb' 20 4 == 0) (f (c.extractLsb' 8 12) (c.extractLsb' 0 8))

/-- Format IV: a 12-bit index and a 12-bit value (30 R46). -/
def formatIV (c : Word) (f : BitVec 12 → BitVec 12 → Instr) : Except IllegalWord Instr :=
  .ok (f (c.extractLsb' 12 12) (c.extractLsb' 0 12))

/-- Format I: a 24-bit index (30 R46). -/
def formatI (c : Word) (f : BitVec 24 → Instr) : Except IllegalWord Instr :=
  .ok (f (c.extractLsb' 0 24))

/-- The value of opcode 0x30: the marker is ENC.EOF, whose row stands first; any other value is ENC (30 R49). -/
def encOrEof (v : BitVec 16) : Instr :=
  if v = Config.eofMarker then .encEof else .enc v

/-- The command a word stands for (30 R49), or why it stands for none (30 R50). -/
def decode (c : Word) : Except IllegalWord Instr :=
  match (opcodeOf c).toNat with
  | 0x00 => formatZ c .nop
  | 0x01 => formatR c .cfgRd
  | 0x02 => formatRV c .cfgWr
  | 0x10 => formatV c .gfLog
  | 0x11 => formatV c .gfAlog
  | 0x12 => formatV c .gfModexp
  | 0x20 => formatS c .rsReset
  | 0x21 => formatSV c .rsUpdate
  | 0x22 => formatSI c .rsRd
  | 0x30 => formatV c encOrEof
  | 0x40 => formatIB c .hdrWr
  | 0x41 => formatI c .hdrRd
  | 0x42 => formatIB c .payWr
  | 0x43 => formatI c .payRd
  | 0x44 => formatZ c .hdrPack
  | 0x45 => formatIV c .payPackA
  | 0x46 => formatIV c .payPackB
  | 0x47 => formatZ c .bufClr
  | 0x48 => formatZ c .frameEnc
  | 0x49 => formatI c .wbRd
  | 0x50 => formatZ c .symBuild
  | 0x51 => formatI c .symRd
  | 0x60 => formatZ c .modRun
  | 0x61 => formatI c .smpRd
  | 0x62 => formatI c .smpRdb
  | _ => .error (.unassignedOpcode (opcodeOf c))

/-- The command word of a command, written from the formats of 30 R46 and the opcodes of 30 R49. -/
def encode : Instr → Word
  | .nop => 0x00#8 ++ 0#24
  | .cfgRd reg => 0x01#8 ++ reg ++ 0#16
  | .cfgWr reg val => 0x02#8 ++ reg ++ val
  | .gfLog v => 0x10#8 ++ 0#8 ++ v
  | .gfAlog v => 0x11#8 ++ 0#8 ++ v
  | .gfModexp v => 0x12#8 ++ 0#8 ++ v
  | .rsReset b => 0x20#8 ++ 0#5 ++ b ++ 0#16
  | .rsUpdate b v => 0x21#8 ++ 0#5 ++ b ++ v
  | .rsRd b i => 0x22#8 ++ 0#5 ++ b ++ 0#11 ++ i
  | .encEof => 0x30#8 ++ 0#8 ++ 0xFFFF#16
  | .enc v => 0x30#8 ++ 0#8 ++ v
  | .hdrWr i b => 0x40#8 ++ 0#4 ++ i ++ b
  | .hdrRd i => 0x41#8 ++ i
  | .payWr i b => 0x42#8 ++ 0#4 ++ i ++ b
  | .payRd i => 0x43#8 ++ i
  | .hdrPack => 0x44#8 ++ 0#24
  | .payPackA i v => 0x45#8 ++ i ++ v
  | .payPackB i v => 0x46#8 ++ i ++ v
  | .bufClr => 0x47#8 ++ 0#24
  | .frameEnc => 0x48#8 ++ 0#24
  | .wbRd i => 0x49#8 ++ i
  | .symBuild => 0x50#8 ++ 0#24
  | .symRd i => 0x51#8 ++ i
  | .modRun => 0x60#8 ++ 0#24
  | .smpRd i => 0x61#8 ++ i
  | .smpRdb i => 0x62#8 ++ i

/-- The mnemonic of the opcode map (30 R49). -/
def Instr.mnemonic : Instr → String
  | .nop => "NOP"
  | .cfgRd _ => "CFG_RD"
  | .cfgWr _ _ => "CFG_WR"
  | .gfLog _ => "GF_LOG"
  | .gfAlog _ => "GF_ALOG"
  | .gfModexp _ => "GF_MODEXP"
  | .rsReset _ => "RS_RESET"
  | .rsUpdate _ _ => "RS_UPDATE"
  | .rsRd _ _ => "RS_RD"
  | .encEof => "ENC.EOF"
  | .enc _ => "ENC"
  | .hdrWr _ _ => "HDR_WR"
  | .hdrRd _ => "HDR_RD"
  | .payWr _ _ => "PAY_WR"
  | .payRd _ => "PAY_RD"
  | .hdrPack => "HDR_PACK"
  | .payPackA _ _ => "PAY_PACK_A"
  | .payPackB _ _ => "PAY_PACK_B"
  | .bufClr => "BUF_CLR"
  | .frameEnc => "FRAME_ENC"
  | .wbRd _ => "WB_RD"
  | .symBuild => "SYM_BUILD"
  | .symRd _ => "SYM_RD"
  | .modRun => "MOD_RUN"
  | .smpRd _ => "SMP_RD"
  | .smpRdb _ => "SMP_RDB"

/-- The operands in the order of the assembler syntax (30 R46, R52). -/
def Instr.operands : Instr → List Nat
  | .nop => []
  | .cfgRd reg => [reg.toNat]
  | .cfgWr reg val => [reg.toNat, val.toNat]
  | .gfLog v => [v.toNat]
  | .gfAlog v => [v.toNat]
  | .gfModexp v => [v.toNat]
  | .rsReset b => [b.toNat]
  | .rsUpdate b v => [b.toNat, v.toNat]
  | .rsRd b i => [b.toNat, i.toNat]
  | .encEof => []
  | .enc v => [v.toNat]
  | .hdrWr i b => [i.toNat, b.toNat]
  | .hdrRd i => [i.toNat]
  | .payWr i b => [i.toNat, b.toNat]
  | .payRd i => [i.toNat]
  | .hdrPack => []
  | .payPackA i v => [i.toNat, v.toNat]
  | .payPackB i v => [i.toNat, v.toNat]
  | .bufClr => []
  | .frameEnc => []
  | .wbRd i => [i.toNat]
  | .symBuild => []
  | .symRd i => [i.toNat]
  | .modRun => []
  | .smpRd i => [i.toNat]
  | .smpRdb i => [i.toNat]

/-- A command as one line of the assembler syntax, its numbers in decimal (30 R52). -/
def Instr.text (i : Instr) : String :=
  match i.operands with
  | [] => i.mnemonic
  | xs => i.mnemonic ++ " " ++ String.intercalate ", " (xs.map toString)

/-- The pseudo-instruction `SET32 SYNC_WORD, x` (30 R53). -/
def set32SyncWord (x : Word) : List Instr :=
  [.cfgWr 0x11 (x.extractLsb' 0 16), .cfgWr 0x12 (x.extractLsb' 16 16)]

/-- The pseudo-instruction `SET32 HDR_UPTIME, x` of an x below 2^25 (30 R53). -/
def set32HdrUptime (x : BitVec 25) : List Instr :=
  [.cfgWr 0x0D (x.extractLsb' 0 16), .cfgWr 0x0E ((x.extractLsb' 16 9).setWidth 16)]

/-- A row of the opcode map (30 R49): the word matches when `word AND mask = pattern`. -/
structure OpcodeRow where
  mnemonic : String
  pattern : Word
  mask : Word
  deriving DecidableEq, Repr

/-- The opcode map in the order of 30 R49; ENC.EOF stands before ENC. -/
def opcodeMap : List OpcodeRow :=
  [ ⟨"NOP", 0x00000000, 0xFFFFFFFF⟩, ⟨"CFG_RD", 0x01000000, 0xFF00FFFF⟩, ⟨"CFG_WR", 0x02000000, 0xFF000000⟩,
    ⟨"GF_LOG", 0x10000000, 0xFFFF0000⟩, ⟨"GF_ALOG", 0x11000000, 0xFFFF0000⟩,
    ⟨"GF_MODEXP", 0x12000000, 0xFFFF0000⟩, ⟨"RS_RESET", 0x20000000, 0xFFF8FFFF⟩,
    ⟨"RS_UPDATE", 0x21000000, 0xFFF80000⟩, ⟨"RS_RD", 0x22000000, 0xFFF8FFE0⟩,
    ⟨"ENC.EOF", 0x3000FFFF, 0xFFFFFFFF⟩, ⟨"ENC", 0x30000000, 0xFFFF0000⟩, ⟨"HDR_WR", 0x40000000, 0xFFF00000⟩,
    ⟨"HDR_RD", 0x41000000, 0xFF000000⟩, ⟨"PAY_WR", 0x42000000, 0xFFF00000⟩, ⟨"PAY_RD", 0x43000000, 0xFF000000⟩,
    ⟨"HDR_PACK", 0x44000000, 0xFFFFFFFF⟩, ⟨"PAY_PACK_A", 0x45000000, 0xFF000000⟩,
    ⟨"PAY_PACK_B", 0x46000000, 0xFF000000⟩, ⟨"BUF_CLR", 0x47000000, 0xFFFFFFFF⟩,
    ⟨"FRAME_ENC", 0x48000000, 0xFFFFFFFF⟩, ⟨"WB_RD", 0x49000000, 0xFF000000⟩,
    ⟨"SYM_BUILD", 0x50000000, 0xFFFFFFFF⟩, ⟨"SYM_RD", 0x51000000, 0xFF000000⟩,
    ⟨"MOD_RUN", 0x60000000, 0xFFFFFFFF⟩, ⟨"SMP_RD", 0x61000000, 0xFF000000⟩,
    ⟨"SMP_RDB", 0x62000000, 0xFF000000⟩ ]

/-- The mnemonic of the first row that matches the word (30 R49). -/
def firstRow (c : Word) : Option String :=
  (opcodeMap.find? (fun r => c &&& r.mask == r.pattern)).map OpcodeRow.mnemonic

/-- The command word a table row's bits stand for: the bits above the `nbits` given are 0. -/
def tableWord (nbits w : Nat) : Word := BitVec.ofNat 32 (w % 2 ^ nbits)

/-- What the decoder reads from a table row's word. -/
def decodeTableWord (nbits w : Nat) : Option Instr :=
  match decode (tableWord nbits w) with
  | .ok i => some i
  | .error _ => none

end Sys2Proof
end

