-- ==== Sys2Proof/Machine/State.lean ====
section
/-! DEFINITION. The state of the hardware, field by field as spec 10 R15 lists it, with the command port the machine
model needs beside it (the host presents command words and takes response words, 00 R5). State is plain data. -/

namespace Sys2Proof.Machine

/-- The contents of an indexed space (20 R32): (index, element) pairs with indexes strictly rising and no zero
element; an index that is not listed reads 0. A space of bytes is a `List Host.Cell`. -/
abbrev Buf (w : Nat) := List (Nat × BitVec w)

/-- One parity bank with its lifecycle state (10 R17, R18). -/
structure Bank where
  /-- RS_ACT: the bank has been zeroed since hardware reset. -/
  act : Bool
  /-- RS_CNT: bytes folded in since then, 0..223. -/
  cnt : Nat
  /-- PAR[0..31]. -/
  par : Vector Byte 32
  deriving DecidableEq, Repr

/-- The parity banks, with room for the largest N_MAX (00 R7). -/
abbrev Banks := Vector Bank 8

/-- The 18 writable configuration registers, each at its width (10 R27). -/
structure Cfg where
  /-- MODE: 0 is FSK, 1 is BPSK. -/
  mode : BitVec 2
  /-- N_SF, the number of sub-frames. -/
  nSf : BitVec 4
  /-- COLS, the information bytes of a sub-frame. -/
  cols : BitVec 8
  /-- HEADER_LEN. -/
  headerLen : BitVec 3
  /-- PAYLOAD_LEN. -/
  payloadLen : BitVec 13
  /-- SKIP_EN. -/
  skipEn : BitVec 1
  /-- SKIP_COL. -/
  skipCol : BitVec 8
  /-- SKIP_SF. -/
  skipSf : BitVec 3
  /-- HDR_ID. -/
  hdrId : BitVec 3
  /-- HDR_RESET. -/
  hdrReset : BitVec 16
  /-- HDR_UPTIME_LO. -/
  hdrUptimeLo : BitVec 16
  /-- HDR_UPTIME_HI. -/
  hdrUptimeHi : BitVec 9
  /-- HDR_TYPE. -/
  hdrType : BitVec 4
  /-- SYNC_BITS. -/
  syncBits : BitVec 6
  /-- SYNC_WORD_LO. -/
  syncWordLo : BitVec 16
  /-- SYNC_WORD_HI. -/
  syncWordHi : BitVec 16
  /-- SPB, samples per bit. -/
  spb : BitVec 16
  /-- SMALLER, samples attenuated before a phase reversal. -/
  smaller : BitVec 16
  deriving DecidableEq, Repr

/-- What the host can do at the port, between two commands: present a command word, or apply the hardware reset
(00 R5, 70 R126). -/
inductive HostInput where
  | command (c : Word)
  | hardReset
  deriving DecidableEq, Repr

/-- The five error kinds of 60 R111. They are no stop of the machine: each is answered in the response word. -/
inductive ErrKind where
  /-- E_ILLEGAL_OP, code 1. -/
  | illegalOp
  /-- E_INVALID_ARG, code 2. -/
  | invalidArg
  /-- E_SEQUENCE, code 3. -/
  | sequence
  /-- E_CONFIG, code 4. -/
  | config
  /-- E_FAULTED, code 5. -/
  | faulted
  deriving DecidableEq, Repr

/-- The complete state (10 R15), and the port. -/
structure State where
  /-- PAR, RS_ACT and RS_CNT of every bank (10 R17, R18). -/
  banks : Banks
  /-- RD (10 R20). -/
  rd : Disparity
  /-- HDR (10 R22). -/
  hdr : Buf 8
  /-- PAY (10 R22). -/
  pay : Buf 8
  /-- WB (10 R23). -/
  wb : Buf 8
  /-- W_COUNT (10 R23). -/
  wCount : Nat
  /-- FRAME_N (10 R23). -/
  frameN : Nat
  /-- FRAME_VALID (10 R23). -/
  frameValid : Bool
  /-- SYM (10 R24). -/
  sym : Buf 10
  /-- SYM_COUNT (10 R24). -/
  symCount : Nat
  /-- SYM_VALID (10 R24). -/
  symValid : Bool
  /-- SMP (10 R25). -/
  smp : Buf 16
  /-- SMP_COUNT (10 R25). -/
  smpCount : Nat
  /-- SMP_VALID (10 R25). -/
  smpValid : Bool
  /-- PHASE (10 R26). -/
  phase : Phase
  /-- REV_COUNT (10 R26). -/
  revCount : Nat
  /-- The writable configuration registers (10 R27). -/
  cfg : Cfg
  /-- FAULT (10 R29). -/
  fault : Bool
  /-- FAULT_CODE (10 R29). -/
  faultCode : BitVec 8
  /-- FAULT_OP (10 R29). -/
  faultOp : BitVec 8
  /-- FAULT_INFO (10 R29). -/
  faultInfo : BitVec 16
  /-- The MODEL's own: what the host presents next at the command port, first first. -/
  inbox : List HostInput
  /-- The MODEL's own: the response word of the last command, none before the first (30 R48). -/
  response : Option Word
  deriving DecidableEq, Repr

/-- A bank that nothing has zeroed since hardware reset (10 R17: its bytes cannot be observed). -/
def Bank.initial : Bank := { act := false, cnt := 0, par := Vector.replicate 32 0 }

/-- The reset values of the writable registers (10 R27, 70 R127). -/
def Cfg.reset : Cfg :=
  { mode := 0, nSf := 1, cols := 223, headerLen := 6, payloadLen := 217, skipEn := 0, skipCol := 0, skipSf := 0,
    hdrId := 0, hdrReset := 0, hdrUptimeLo := 0, hdrUptimeHi := 0, hdrType := 0, syncBits := 10,
    syncWordLo := 0x00FA, syncWordHi := 0, spb := 1, smaller := 0 }

/-- The machine right after the hardware reset (70 R127), with nothing presented at the port. -/
def State.reset : State :=
  { banks := Vector.replicate 8 Bank.initial, rd := .neg, hdr := [], pay := [], wb := [], wCount := 0, frameN := 0,
    frameValid := false, sym := [], symCount := 0, symValid := false, smp := [], smpCount := 0, smpValid := false,
    phase := .plus, revCount := 0, cfg := Cfg.reset, fault := false, faultCode := 0, faultOp := 0, faultInfo := 0,
    inbox := [], response := none }

/-- Why the machine stops. NO CONSTRUCTOR: the spec gives every command word an answer in every state (60 R115, R116),
so no step of the hardware stops; an error is a next state (`ErrKind`). -/
inductive Fault where
  deriving DecidableEq, Repr

/-- Why a command has no meaning in the model. -/
inductive Refusal where
  /-- The instruction is not modelled. Raised by no arm: every command has its meaning. Safe. -/
  | notModelled (mnemonic : String)
  deriving DecidableEq, Repr

end Sys2Proof.Machine
end

