-- ==== Sys2Proof/Machine/Ops.lean ====
section
/-! DEFINITION. The shared operations: reading and writing an indexed space (spec 20 R32, 00 R12), the updates of the
state, answering a command, raising an error (60 R116) and the hardware reset, the one way out of the faulted state
(60 R118, 70 R126). -/

namespace Sys2Proof.Machine

/-! ### Indexed spaces -/

/-- `MemRead(space, i)` (00 R12); an index that is not listed reads 0. -/
def Buf.read {w : Nat} : Buf w → Nat → BitVec w
  | [], _ => 0
  | (k, x) :: rest, i => if k = i then x else Buf.read rest i

/-- Put an element before the first higher index. -/
def Buf.insert {w : Nat} (i : Nat) (v : BitVec w) : Buf w → Buf w
  | [] => [(i, v)]
  | (k, x) :: rest => if i < k then (i, v) :: (k, x) :: rest else (k, x) :: Buf.insert i v rest

/-- `MemWrite(space, i, v)` (00 R12). Writing 0 leaves no entry. -/
def Buf.write {w : Nat} (b : Buf w) (i : Nat) (v : BitVec w) : Buf w :=
  let others := b.filter (fun e => e.1 != i)
  if v = 0 then others else Buf.insert i v others

/-- The space that holds the given elements from index `k` on and zeros elsewhere. -/
def Buf.ofListFrom {w : Nat} : Nat → List (BitVec w) → Buf w
  | _, [] => []
  | k, x :: xs => if x = 0 then Buf.ofListFrom (k + 1) xs else (k, x) :: Buf.ofListFrom (k + 1) xs

/-- The writes of a producing command: `MemWrite(space, k, xs[k])` for every k below the length; the elements above
are left as they are (43 R89, 44 R94, 45 R99). -/
def Buf.fill {w : Nat} (b : Buf w) (xs : List (BitVec w)) : Buf w :=
  Buf.ofListFrom 0 xs ++ b.filter (fun e => decide (xs.length ≤ e.1))

/-- The canonical form: indexes strictly rising, no zero element. -/
def Buf.wf {w : Nat} : Buf w → Bool
  | [] => true
  | (k, x) :: rest => (x != 0) && rest.all (fun e => decide (k < e.1)) && Buf.wf rest

/-- Every listed index is below `n`. -/
def Buf.below {w : Nat} (n : Nat) (b : Buf w) : Bool := b.all (fun e => decide (e.1 < n))

/-! ### Parity banks -/

/-- Bank `n` (10 R17). -/
def bankOf (bs : Banks) (n : Nat) : Bank := (bs[n]?).getD Bank.initial

/-- Replace bank `n`. -/
def putBank (bs : Banks) (n : Nat) (b : Bank) : Banks := bs.setIfInBounds n b

/-! ### Updates of the state, one for each group of fields that is written together -/

/-- Put the response word at the port. -/
def State.withResponse (s : State) (r : Word) : State := { s with response := some r }

/-- Write the fault record and set FAULT (10 R29). -/
def State.withRecord (s : State) (code op : Byte) (info : Half) : State :=
  { s with fault := true, faultCode := code, faultOp := op, faultInfo := info }

/-- Write the parity banks. -/
def State.withBanks (s : State) (bs : Banks) : State := { s with banks := bs }

/-- Write RD. -/
def State.withRd (s : State) (rd : Disparity) : State := { s with rd := rd }

/-- Write HDR. -/
def State.withHdr (s : State) (b : Buf 8) : State := { s with hdr := b }

/-- Write PAY. -/
def State.withPay (s : State) (b : Buf 8) : State := { s with pay := b }

/-- Write FRAME_VALID. -/
def State.withFrameValid (s : State) (v : Bool) : State := { s with frameValid := v }

/-- Write WB, W_COUNT and FRAME_N. -/
def State.withFrame (s : State) (wb : Buf 8) (count n : Nat) : State :=
  { s with wb := wb, wCount := count, frameN := n }

/-- Write SYM and SYM_COUNT and set SYM_VALID. -/
def State.withSymbols (s : State) (sym : Buf 10) (count : Nat) : State :=
  { s with sym := sym, symCount := count, symValid := true }

/-- Write SMP and SMP_COUNT and set SMP_VALID. -/
def State.withSamples (s : State) (smp : Buf 16) (count : Nat) : State :=
  { s with smp := smp, smpCount := count, smpValid := true }

/-- Write PHASE and REV_COUNT. -/
def State.withPhase (s : State) (p : Phase) (rev : Nat) : State := { s with phase := p, revCount := rev }

/-- Write the configuration registers. -/
def State.withCfg (s : State) (c : Cfg) : State := { s with cfg := c }

/-- Write what is presented at the port. -/
def State.withInbox (s : State) (xs : List HostInput) : State := { s with inbox := xs }

/-! ### Answering a command -/

/-- The response word: status, zero, result (30 R48). -/
def responseWord (status : Byte) (result : Half) : Word := status ++ 0#8 ++ result

/-- The code of an error kind (60 R111). -/
def ErrKind.code : ErrKind → Byte
  | .illegalOp => 1
  | .invalidArg => 2
  | .sequence => 3
  | .config => 4
  | .faulted => 5

/-- `respond(v)`: the command completed with result v (00 R12, 30 R48). -/
def State.respond (s : State) (v : Half) : State := s.withResponse (responseWord 0 v)

/-- `raise E`: taking an error on command word `c`. The first one since reset writes the fault record; the state is
otherwise left as it is, and the response carries the code (60 R116). -/
def State.raise (s : State) (e : ErrKind) (c : Word) : State :=
  (if s.fault then s else s.withRecord e.code (opcodeOf c) (c.extractLsb' 0 16)).withResponse
    (responseWord e.code 0)

/-- The hardware reset, which alone leaves the faulted state (60 R118): every piece of state takes its reset value (70
R126, R127). What the host will present after it stays at the port. -/
def State.hardReset (s : State) : State := State.reset.withInbox s.inbox

/-- What a command's rule yields: the changed state and the result of `respond`, or the error of `raise`. -/
abbrev Reply := Except ErrKind (State × Half)

/-- Answer with what the command's rule yields from `s`. An error changes nothing but the record (60 R116). -/
def answer (i : Instr) (s : State) : Reply → Host.Outcome State Fault Refusal
  | .ok (t, v) => .next (t.respond v)
  | .error e => .next (s.raise e (encode i))

/-- Run a command that is served while FAULT = 1 too: NOP and CFG_RD (60 R117). -/
def serveAlways (i : Instr) (rule : State → Reply) (s : State) : Host.Outcome State Fault Refusal :=
  answer i s (rule s)

/-- Run any other command: while FAULT = 1 it responds E_FAULTED and does nothing (60 R115 row 1, R117). -/
def serve (i : Instr) (rule : State → Reply) (s : State) : Host.Outcome State Fault Refusal :=
  if s.fault then .next (s.raise .faulted (encode i)) else answer i s (rule s)

/-- A word that is no command: E_FAULTED while FAULT = 1, E_ILLEGAL_OP otherwise (30 R50, R51; 60 R115). -/
def execIllegal (c : Word) (s : State) : Host.Outcome State Fault Refusal :=
  .next (s.raise (if s.fault then .faulted else .illegalOp) c)

/-! ### The port -/

/-- What the host presents next. -/
inductive Fetched where
  /-- Nothing: the hardware waits (70 R126, 60 R125). -/
  | idle
  /-- The hardware reset. -/
  | hardReset
  /-- A command. -/
  | command (i : Instr)
  /-- A word that is no command. -/
  | illegal (c : Word)
  deriving DecidableEq, Repr

/-- Take the next input off the port and decode it. -/
def fetch (s : State) : Fetched × State :=
  match s.inbox with
  | [] => (.idle, s)
  | .hardReset :: rest => (.hardReset, s.withInbox rest)
  | .command c :: rest =>
    match decode c with
    | .ok i => (.command i, s.withInbox rest)
    | .error _ => (.illegal c, s.withInbox rest)

/-- Present a command word before everything else at the port. -/
def State.present (s : State) (c : Word) : State := s.withInbox (.command c :: s.inbox)

end Sys2Proof.Machine
end

