-- ==== Sys2Proof/Machine/Flags.lean ====
section
/-! DEFINITION. The flags (spec 10 R20, R21, R28): the STATUS word, what sets and clears the valid flags beside their
producing commands, and the activity flag with its counter as RS_STAT shows them. There are no arithmetic flags. -/

namespace Sys2Proof.Machine

/-- PHASE_NEG: 1 when PHASE = -1 (10 R28). -/
def phaseNeg : Phase → Bool
  | .plus => false
  | .minus => true

/-- A flag at a bit position of a 16-bit register. -/
def flagAt (f : Bool) (k : Nat) : Half := if f then BitVec.twoPow 16 k else 0

/-- STATUS (10 R28). -/
def statusValue (s : State) : Half :=
  flagAt s.fault 0 ||| flagAt s.rd.bit 1 ||| flagAt s.frameValid 2 ||| flagAt s.symValid 3 |||
    flagAt s.smpValid 4 ||| flagAt (phaseNeg s.phase) 5

/-- RS_STAT of a bank: bits 7:0 RS_CNT, bit 8 RS_ACT (10 R27). -/
def rsStatValue (b : Bank) : Half := (BitVec.ofNat 8 b.cnt).setWidth 16 ||| flagAt b.act 8

/-- Write the banks and clear FRAME_VALID: what RS_RESET and RS_UPDATE do, on any bank (10 R23). -/
def State.disturbBanks (s : State) (bs : Banks) : State := (s.withBanks bs).withFrameValid false

end Sys2Proof.Machine
end

