-- ==== Sys2Proof/Machine/Operands.lean ====
section
/-! DEFINITION. The operand checks the commands share (spec 60 R115 row 3): each is the condition under which the
operand is refused with E_INVALID_ARG. Operands are unsigned and taken as they stand (30 R47). -/

namespace Sys2Proof.Machine

/-- `v > 255`: the value is not a byte (40 R58, R59; 41 R66). -/
def notAByte (v : Half) : Bool := decide (255 < v.toNat)

/-- `v[7:0]`. -/
def lowByte (v : Half) : Byte := v.extractLsb' 0 8

/-- `s >= N_MAX`: the bank does not exist (41 R65 to R67). -/
def noSuchBank (P : Params) (b : BitVec 3) : Bool := decide (P.nMax ≤ b.toNat)

/-- `i >= 6`: no byte of HDR (43 R80, R81). -/
def outsideHdr (i : Nat) : Bool := decide (Config.headerBytes ≤ i)

/-- `i >= PAY_MAX`: no byte of PAY (43 R82, R83). -/
def outsidePay (P : Params) (i : Nat) : Bool := decide (P.payMax ≤ i)

/-- `v > 255 and v != 0xFFFF`: neither a byte nor the end-of-frame marker (42 R75, R77). -/
def notEncodable (v : Half) : Bool := notAByte v && v != Config.eofMarker

/-- `zext_16` of a byte (00 R12). -/
def zextByte (b : Byte) : Half := b.setWidth 16

/-- `zext_16` of a symbol: bits 15:10 are zero (42 R75). -/
def zextSymbol (c : Symbol) : Half := c.setWidth 16

/-- Bits 15:0 of a count (30 R48). -/
def lowHalf (n : Nat) : Half := BitVec.ofNat 16 n

end Sys2Proof.Machine
end

