-- ==== Sys2Proof/Machine/Tables.lean ====
section
/-! DEFINITION. The default contents of the table parameters (spec 40 R54, R55; 41 R62; 42 R74), written row by row as
the spec prints them, the modulator's functions over the free values of `Config`, the reference waveform of 45 R103,
and the parameters of the machine. -/

namespace Sys2Proof.Machine

/-- Entry `x` of a 256-byte table printed as 16 rows of 16 bytes, leftmost byte first. -/
def byteOfRows (rows : List Nat) (x : Byte) : Byte :=
  BitVec.ofNat 8 ((rows.getD (x.toNat / 16) 0) >>> (8 * (15 - x.toNat % 16)))

/-- The default LOG, row r holding LOG[16r .. 16r+15] (40 R54). -/
def logRows : List Nat :=
  [ 0xFF00016302C6646A03CDC7BC657E6B2A, 0x048DCE4EC8D4BDE166DD7F316C202BF3, 0x05578EE8CFAC4F83C9D9D541BE94E2B4,
    0x6727DEF080B132356D4521122C0DF438, 0x069B581A8F79E970D0C2ADA850758448, 0xCAFCDA8AD6544224BF9895F9E35EB515,
    0x686128BADF4CF12F81E6B23F33EE3610, 0x6E1846A6228813F72DB80E3DF5A4393B, 0x079E9C9D599F1B0890097A1CEAA0715A,
    0xD11DC37BAE0AA991515B767285A149EB, 0xCB7CFDC4DB1E8BD2D79255AA430B25AF, 0xC0739977965CFA52E4EC5F4AB6A21686,
    0x69C562FE297DBBCCE0D34D8CF21F30DC, 0x82ABE756B39340D834B0EF26370C1144, 0x6F78199A4774A7C1235389FB145DF897,
    0x2E4BB9600FED3EE5F687A5173AA33CB7 ]

/-- The default ALOG, row r holding ALOG[16r .. 16r+15] (40 R55). -/
def alogRows : List Nat :=
  [ 0x0102040810204080878995ADDD3D7AF4, 0x6FDE3B76EC5FBEFB71E243868B91A5CD, 0x1D3A74E857AEDB3162C40F1E3C78F067,
    0xCE1B366CD8376EDC3F7EFC7FFE7BF66B, 0xD62B56ACDF3972E44F9EBBF165CA1326, 0x4C98B7E955AAD32142848F99B5ED5DBA,
    0xF361C203060C183060C0070E1C3870E0, 0x478E9BB1E54D9AB3E1458A93A1C50D1A, 0x3468D0274E9CBFF975EA53A6CB112244,
    0x8897A9D52D5AB4EF59B2E34182838185, 0x8D9DBDFD7DFA73E64B96ABD1254A94AF, 0xD9356AD42F5EBCFF79F263C60B162C58,
    0xB0E74992A3C1050A142850A0C7091224, 0x4890A7C9152A54A8D72952A4CF193264, 0xC8172E5CB8F769D223468C9FB9F56DDA,
    0x3366CC1F3E7CF877EE5BB6EB51A2C300 ]

/-- The default LOG (40 R54). -/
def defaultLog (x : Byte) : Byte := byteOfRows logRows x

/-- The default ALOG (40 R55). -/
def defaultAlog (e : Byte) : Byte := byteOfRows alogRows e

/-- The default GEN[0..32] in index form (41 R62). -/
def genList : List Nat :=
  [ 0, 249, 59, 66, 4, 43, 126, 251, 97, 30, 3, 213, 50, 66, 170, 5, 24,
    5, 170, 66, 50, 213, 3, 30, 97, 251, 126, 43, 4, 66, 59, 249, 0 ]

/-- The default GEN (41 R62); there is no entry above 32. -/
def defaultGen (j : Nat) : Byte := BitVec.ofNat 8 (genList.getD j 0)

/-- The 5b/6b table: row x holds abcdei for negative and for positive disparity (42 R74 step 1). -/
def sixRows : List (BitVec 6 × BitVec 6) :=
  [ (0b100111, 0b011000), (0b011101, 0b100010), (0b101101, 0b010010), (0b110001, 0b110001),
    (0b110101, 0b001010), (0b101001, 0b101001), (0b011001, 0b011001), (0b111000, 0b000111),
    (0b111001, 0b000110), (0b100101, 0b100101), (0b010101, 0b010101), (0b110100, 0b110100),
    (0b001101, 0b001101), (0b101100, 0b101100), (0b011100, 0b011100), (0b010111, 0b101000),
    (0b011011, 0b100100), (0b100011, 0b100011), (0b010011, 0b010011), (0b110010, 0b110010),
    (0b001011, 0b001011), (0b101010, 0b101010), (0b011010, 0b011010), (0b111010, 0b000101),
    (0b110011, 0b001100), (0b100110, 0b100110), (0b010110, 0b010110), (0b110110, 0b001001),
    (0b001110, 0b001110), (0b101110, 0b010001), (0b011110, 0b100001), (0b101011, 0b010100) ]

/-- The 3b/4b table: row y holds fghj for negative and for positive disparity (42 R74 step 2). -/
def fourRows : List (BitVec 4 × BitVec 4) :=
  [ (0b1011, 0b0100), (0b1001, 0b1001), (0b0101, 0b0101), (0b1100, 0b0011),
    (0b1101, 0b0010), (0b1010, 0b1010), (0b0110, 0b0110), (0b1110, 0b0001) ]

/-- The row "7 alternate" of the 3b/4b table (42 R74 step 2). -/
def fourAlternate : BitVec 4 × BitVec 4 := (0b0111, 0b1000)

/-- The pattern of a row for a disparity (42 R74). -/
def pick {w : Nat} (row : BitVec w × BitVec w) : Disparity → BitVec w
  | .neg => row.1
  | .pos => row.2

/-- The number of 1 bits among the low `n` bits. -/
def onesBelow {w : Nat} (v : BitVec w) : Nat → Nat
  | 0 => 0
  | n + 1 => onesBelow v n + (v.getLsbD n).toNat

/-- The disparity after a pattern: kept when it is balanced, inverted otherwise (42 R74). -/
def afterPattern {w : Nat} (rd : Disparity) (pattern : BitVec w) : Disparity :=
  if 2 * onesBelow pattern w = w then rd else rd.flip

/-- Whether byte part x takes the row "7 alternate" at the disparity before the 4-bit part (42 R74 step 2). -/
def takesAlternate (rd1 : Disparity) (x : Nat) : Bool :=
  match rd1 with
  | .neg => x == 17 || x == 18 || x == 20
  | .pos => x == 11 || x == 13 || x == 14

/-- The default ENCTAB, by the three steps of 42 R74. -/
def defaultEncTab (rd : Disparity) (b : Byte) : Symbol × Disparity :=
  let x := (b.extractLsb' 0 5).toNat
  let y := (b.extractLsb' 5 3).toNat
  let six := pick (sixRows.getD x (0, 0)) rd
  let rd1 := afterPattern rd six
  let four := pick (if y = 7 ∧ takesAlternate rd1 x = true then fourAlternate else fourRows.getD y (0, 0)) rd1
  (six ++ four, afterPattern rd1 four)

/-- The printed result of 42 R74 for negative disparity: 32 rows of 8 entries, four digits an entry, the first the
next disparity and the others the codeword. -/
def encRowsNeg : List Nat :=
  [ 0x027401D402D4131B0354129B119B138B, 0x0394125B115B134B10DB12CB11CB0174, 0x01B4123B113B132B10BB12AB11AB03A4,
    0x0334126B116B036410EB02E401E402B4, 0x127911D912D903191359029901990389, 0x139902590159034900D902C901C91179,
    0x11B902390139032900B902A901A913A9, 0x133902690169136900E912E911E912B9, 0x127511D512D503151355029501950385,
    0x139502550155034500D502C501C51175, 0x11B502350135032500B502A501A513A5, 0x133502650165136500E512E511E512B5,
    0x127311D312D3031C1353029C019C038C, 0x1393025C015C034C00DC02CC01CC1173, 0x11B3023C013C032C00BC02AC01AC13A3,
    0x1333026C016C136300EC12E311E312B3, 0x027201D202D2131D0352129D119D138D, 0x0392125D115D134D10DD12CD11CD0172,
    0x01B2123D113D132D10BD12AD11AD03A2, 0x0332126D116D036210ED02E201E202B2, 0x127A11DA12DA031A135A029A019A038A,
    0x139A025A015A034A00DA02CA01CA117A, 0x11BA023A013A032A00BA02AA01AA13AA, 0x133A026A016A136A00EA12EA11EA12BA,
    0x127611D612D603161356029601960386, 0x139602560156034600D602C601C61176, 0x11B602360136032600B602A601A613A6,
    0x133602660166136600E612E611E612B6, 0x027101D102D1131E0351129E119E138E, 0x0391125E115E134E10DE12CE11CE0171,
    0x01B112371137132E10B712AE11AE03A1, 0x0331126E116E036110EE02E101E102B1 ]

/-- The printed result of 42 R74 for positive disparity, laid out as `encRowsNeg`. -/
def encRowsPos : List Nat :=
  [ 0x118B122B112B031410AB029401940074, 0x106B02540154034400D402C401C4128B, 0x124B02340134032400B402A401A4105B,
    0x10CB02640164109B00E4111B121B114B, 0x018902290129131900A9129911991079, 0x006912591159134910D912C911C90289,
    0x024912391139132910B912A911A90059, 0x00C912691169009910E9011902190149, 0x018502250125131500A5129511951075,
    0x006512551155134510D512C511C50285, 0x024512351135132510B512A511A50055, 0x00C512651165009510E5011502150145,
    0x018C022C012C131300AC129311931073, 0x006C12531153134310D312C311C3028C, 0x024C12331133132310B312A311A3005C,
    0x00CC12631163009C10E3011C021C014C, 0x118D122D112D031210AD029201920072, 0x106D02520152034200D202C201C2128D,
    0x124D02320132032200B202A201A2105D, 0x10CD02620162109D00E2111D121D114D, 0x018A022A012A131A00AA129A119A107A,
    0x006A125A115A134A10DA12CA11CA028A, 0x024A123A113A132A10BA12AA11AA005A, 0x00CA126A116A009A10EA011A021A014A,
    0x018602260126131600A6129611961076, 0x006612561156134610D612C611C60286, 0x024612361136132610B612A611A60056,
    0x00C612661166009610E6011602160146, 0x118E122E112E031110AE029101910071, 0x106E02510151034800D102C801C8128E,
    0x124E02310131032100B102A101A1105E, 0x10CE02610161109E00E1111E121E114E ]

/-- ENCTAB as 42 R74 prints it, all 512 entries. -/
def listedEncTab (rd : Disparity) (b : Byte) : Symbol × Disparity :=
  let rows := match rd with
    | .neg => encRowsNeg
    | .pos => encRowsPos
  let entry := (rows.getD (b.toNat / 8) 0) >>> (16 * (7 - b.toNat % 8))
  (BitVec.ofNat 10 entry, if entry / 4096 % 2 = 1 then .pos else .neg)

/-- KCOMMA, the control pattern of a disparity (42 R76). -/
def kcomma : Disparity → Symbol
  | .neg => 0x0FA
  | .pos => 0x305

/-- CARRIER of the machine: any integer in the range of 00 R9, by a free value. -/
def carrier (n : Nat) : Int := ((Config.carrierChoice n).val : Int) - 32767

/-- TONE of the machine: any integer in the range of 00 R9, by a free value. -/
def tone (b : Bool) (n : Nat) : Int := (Config.toneChoice b n).toInt

/-- RAMP of the machine: the sign of the sample and any magnitude not above the sample's, by a free value (00 R9). -/
def ramp (v : Int) (j S : Nat) : Int := v.sign * (min v.natAbs (Config.rampChoice v j S) : Nat)

/-- The parameters of the machine: the default sizes and tables of the spec, and the free functions of the modulator,
for which it gives no default (92, "Parameters left open"). -/
def machineParams : Params where
  nMax := 8
  payMax := 2048
  smpMax := 2 ^ 23
  log := defaultLog
  alog := defaultAlog
  gen := defaultGen
  encTab := defaultEncTab
  carrier := carrier
  tone := tone
  ramp := ramp

/-- `sq(n, h)` of the reference waveform (45 R103). -/
def squareWave (n h : Nat) : Int := if (n / h) % 2 = 0 then 1 else -1

/-- The machine's parameters with REF_WAVE(AMP, HPC, HP0, HP1) for the modulator's functions: the spec's own, for test
vectors only (45 R103). -/
def refWave (amp hpc hp0 hp1 : Nat) : Params :=
  { machineParams with
    carrier := fun n => amp * squareWave n hpc
    tone := fun b n => amp * squareWave n (if b then hp1 else hp0)
    ramp := fun v j S => v.sign * ((v.natAbs * j / (S + 1) : Nat) : Int) }

end Sys2Proof.Machine
end

