-- ==== Sys2Proof/Machine/Gf.lean ====
section
/-! DEFINITION. The GF engine (spec 40): the three pure functions, field multiplication, and the commands GF_LOG,
GF_ALOG and GF_MODEXP. -/

namespace Sys2Proof.Machine

/-- `modexp(e)`: e mod 255, for every e (40 R56; the printed loop is not followed, 90 C1). -/
def modexp (e : Nat) : Nat := e % Config.groupOrder

/-- `antilog(modexp(a + b))` of two exponents; the sum is formed without wrap-around (40 R57). -/
def antilogSum (P : Params) (a b : Byte) : Byte := P.alog (BitVec.ofNat 8 (modexp (a.toNat + b.toNat)))

/-- Multiplication of field elements (00 R13, 40 R57). -/
def fieldMul (P : Params) (a b : Byte) : Byte :=
  if a = 0 ∨ b = 0 then 0 else antilogSum P (P.log a) (P.log b)

/-- GF_LOG (40 R58). -/
def gfLogRule (P : Params) (v : Half) (s : State) : Reply :=
  if notAByte v then .error .invalidArg else .ok (s, zextByte (P.log (lowByte v)))

/-- GF_ALOG (40 R59). -/
def gfAlogRule (P : Params) (v : Half) (s : State) : Reply :=
  if notAByte v then .error .invalidArg else .ok (s, zextByte (P.alog (lowByte v)))

/-- GF_MODEXP (40 R60). -/
def gfModexpRule (v : Half) (s : State) : Reply := .ok (s, lowHalf (modexp v.toNat))

/-- Meaning of GF_LOG (40 R58). -/
def execGfLog (v : BitVec 16) (s : State) : Host.Outcome State Fault Refusal :=
  serve (.gfLog v) (gfLogRule machineParams v) s

/-- Meaning of GF_ALOG (40 R59). -/
def execGfAlog (v : BitVec 16) (s : State) : Host.Outcome State Fault Refusal :=
  serve (.gfAlog v) (gfAlogRule machineParams v) s

/-- Meaning of GF_MODEXP (40 R60). -/
def execGfModexp (v : BitVec 16) (s : State) : Host.Outcome State Fault Refusal :=
  serve (.gfModexp v) (gfModexpRule v) s

end Sys2Proof.Machine
end

