-- ==== Sys2Proof/Machine/Rs.lean ====
section
/-! DEFINITION. The Reed-Solomon encoder (spec 41): the two state changes of a bank and the commands RS_RESET,
RS_UPDATE and RS_RD. -/

namespace Sys2Proof.Machine

/-- A bank just zeroed: `rs_reset` (41 R63). -/
def freshBank : Bank := { act := true, cnt := 0, par := Vector.replicate 32 0 }

/-- The coefficient that reaches byte k of the bank: GEN[k] up to the centre, GEN[32-k] above it (41 R64). -/
def tapIndex (k : Nat) : Nat := if k ≤ 16 then k else 32 - k

/-- The byte XORed into PAR[k] for a feedback that is not the sentinel (41 R64). -/
def tap (P : Params) (fb : Byte) (k : Nat) : Byte := antilogSum P fb (P.gen (tapIndex k))

/-- The multiply and accumulate step on PAR[k], PAR[k+1], ... (41 R64). -/
def accumulateFrom (P : Params) (fb : Byte) : Nat → List Byte → List Byte
  | _, [] => []
  | k, x :: xs => (x ^^^ tap P fb k) :: accumulateFrom P fb (k + 1) xs

/-- One byte folded into the parity bytes (41 R64): the feedback, the accumulate step on PAR[1..31] unless the feedback
is the sentinel, then the shift with antilog(feedback) as the new last byte. -/
def foldBytes (P : Params) (par : List Byte) (b : Byte) : List Byte :=
  let fb := P.log (b ^^^ par.headD 0)
  (if fb = Config.sentinel then par.tail else accumulateFrom P fb 1 par.tail) ++ [P.alog fb]

/-- The accumulate step keeps the number of bytes. -/
theorem accumulateFrom_length (P : Params) (fb : Byte) (k : Nat) (xs : List Byte) :
    (accumulateFrom P fb k xs).length = xs.length := by
  induction xs generalizing k with
  | nil => rfl
  | cons x xs ih => simp [accumulateFrom, ih]

/-- Folding keeps the 32 bytes of a bank. -/
theorem foldBytes_length (P : Params) (par : Vector Byte 32) (b : Byte) :
    (foldBytes P par.toList b).length = 32 := by
  unfold foldBytes
  dsimp only
  split <;> simp [accumulateFrom_length]

/-- `foldBytes` on the 32 bytes of a bank. -/
def rsFold (P : Params) (par : Vector Byte 32) (b : Byte) : Vector Byte 32 :=
  ⟨(foldBytes P par.toList b).toArray, by rw [List.size_toArray]; exact foldBytes_length P par b⟩

/-- `rs_update` on one bank (41 R64). -/
def updateBank (P : Params) (k : Bank) (b : Byte) : Bank :=
  { k with cnt := k.cnt + 1, par := rsFold P k.par b }

/-- `rs_update(s, b)` (41 R64). -/
def rsUpdate (P : Params) (bs : Banks) (n : Nat) (b : Byte) : Banks :=
  putBank bs n (updateBank P (bankOf bs n) b)

/-- RS_RESET (41 R65). -/
def rsResetRule (P : Params) (b : BitVec 3) (s : State) : Reply :=
  if noSuchBank P b then .error .invalidArg
  else .ok (s.disturbBanks (putBank s.banks b.toNat freshBank), 0)

/-- RS_UPDATE (41 R66). -/
def rsUpdateRule (P : Params) (b : BitVec 3) (v : Half) (s : State) : Reply :=
  if noSuchBank P b then .error .invalidArg
  else if notAByte v then .error .invalidArg
  else if (bankOf s.banks b.toNat).act = false then .error .sequence
  else if (bankOf s.banks b.toNat).cnt = Config.bankCapacity then .error .sequence
  else .ok (s.disturbBanks (rsUpdate P s.banks b.toNat (lowByte v)), 0)

/-- RS_RD (41 R67). -/
def rsRdRule (P : Params) (b : BitVec 3) (i : BitVec 5) (s : State) : Reply :=
  if noSuchBank P b then .error .invalidArg
  else if (bankOf s.banks b.toNat).act = false then .error .sequence
  else .ok (s, zextByte ((bankOf s.banks b.toNat).par[i.toNat]'i.isLt))

/-- Meaning of RS_RESET (41 R65). -/
def execRsReset (b : BitVec 3) (s : State) : Host.Outcome State Fault Refusal :=
  serve (.rsReset b) (rsResetRule machineParams b) s

/-- Meaning of RS_UPDATE (41 R66). -/
def execRsUpdate (b : BitVec 3) (v : BitVec 16) (s : State) : Host.Outcome State Fault Refusal :=
  serve (.rsUpdate b v) (rsUpdateRule machineParams b v) s

/-- Meaning of RS_RD (41 R67). -/
def execRsRd (b : BitVec 3) (i : BitVec 5) (s : State) : Host.Outcome State Fault Refusal :=
  serve (.rsRd b i) (rsRdRule machineParams b i) s

end Sys2Proof.Machine
end

