-- ==== Sys2Proof/Machine/Frame.lean ====
section
/-! DEFINITION. The frame assembler, interleaver and byte distributor (spec 43): access to HDR and PAY, the bit-level
packers, BUF_CLR, FRAME_ENC and WB_RD. -/

namespace Sys2Proof.Machine

/-! ### Buffer access -/

/-- HDR_WR (43 R80). -/
def hdrWrRule (i : BitVec 12) (b : Byte) (s : State) : Reply :=
  if outsideHdr i.toNat then .error .invalidArg else .ok (s.withHdr (Buf.write s.hdr i.toNat b), 0)

/-- HDR_RD (43 R81). -/
def hdrRdRule (i : BitVec 24) (s : State) : Reply :=
  if outsideHdr i.toNat then .error .invalidArg else .ok (s, zextByte (Buf.read s.hdr i.toNat))

/-- PAY_WR (43 R82). -/
def payWrRule (P : Params) (i : BitVec 12) (b : Byte) (s : State) : Reply :=
  if outsidePay P i.toNat then .error .invalidArg else .ok (s.withPay (Buf.write s.pay i.toNat b), 0)

/-- PAY_RD (43 R83). -/
def payRdRule (P : Params) (i : BitVec 24) (s : State) : Reply :=
  if outsidePay P i.toNat then .error .invalidArg else .ok (s, zextByte (Buf.read s.pay i.toNat))

/-- BUF_CLR: every byte of HDR and of PAY becomes 0 (43 R84). -/
def bufClrRule (s : State) : Reply := .ok ((s.withHdr []).withPay [], 0)

/-! ### Packers -/

/-- The six header bytes, byte 0 first (43 R85). -/
def packedHeader (c : Cfg) : List Byte :=
  let up : BitVec 25 := c.hdrUptimeHi ++ c.hdrUptimeLo
  [ c.hdrReset.extractLsb' 0 5 ++ c.hdrId,
    c.hdrReset.extractLsb' 5 8,
    up.extractLsb' 0 5 ++ c.hdrReset.extractLsb' 13 3,
    up.extractLsb' 5 8,
    up.extractLsb' 13 8,
    c.hdrType ++ up.extractLsb' 21 4 ]

/-- HDR_PACK (43 R85). -/
def hdrPackRule (s : State) : Reply := .ok (s.withHdr (Buf.fill s.hdr (packedHeader s.cfg)), 0)

/-- PAY after PAY_PACK_A: PAY[i] = v[7:0], the low nibble of PAY[i+1] = v[11:8], its high nibble kept (43 R86). -/
def packA (pay : Buf 8) (i : Nat) (v : BitVec 12) : Buf 8 :=
  Buf.write (Buf.write pay i (v.extractLsb' 0 8)) (i + 1)
    ((Buf.read pay (i + 1)).extractLsb' 4 4 ++ v.extractLsb' 8 4)

/-- PAY after PAY_PACK_B: the high nibble of PAY[i] = v[3:0], its low nibble kept, PAY[i+1] = v[11:4] (43 R87). -/
def packB (pay : Buf 8) (i : Nat) (v : BitVec 12) : Buf 8 :=
  Buf.write (Buf.write pay i (v.extractLsb' 0 4 ++ (Buf.read pay i).extractLsb' 0 4)) (i + 1)
    (v.extractLsb' 4 8)

/-- PAY_PACK_A (43 R86). -/
def payPackARule (P : Params) (i v : BitVec 12) (s : State) : Reply :=
  if outsidePay P (i.toNat + 1) then .error .invalidArg else .ok (s.withPay (packA s.pay i.toNat v), 0)

/-- PAY_PACK_B (43 R87). -/
def payPackBRule (P : Params) (i v : BitVec 12) (s : State) : Reply :=
  if outsidePay P (i.toNat + 1) then .error .invalidArg else .ok (s.withPay (packB s.pay i.toNat v), 0)

/-! ### The distributor -/

/-- The geometry FRAME_ENC samples at its start (43 R89, 70 R134). -/
structure Geometry where
  /-- N, sub-frames. -/
  n : Nat
  /-- C, columns. -/
  c : Nat
  /-- H, header bytes. -/
  h : Nat
  /-- P, payload bytes. -/
  p : Nat
  /-- SK = 1. -/
  skip : Bool
  /-- SC, the column of the skipped slot. -/
  sc : Nat
  /-- SS, the sub-frame of the skipped slot. -/
  ss : Nat
  deriving DecidableEq, Repr

/-- The registers FRAME_ENC reads (43 R89). -/
def geometry (c : Cfg) : Geometry :=
  { n := c.nSf.toNat, c := c.cols.toNat, h := c.headerLen.toNat, p := c.payloadLen.toNat,
    skip := c.skipEn == 1, sc := c.skipCol.toNat, ss := c.skipSf.toNat }

/-- W, the number of slots that receive a byte (43 R89). -/
def Geometry.w (g : Geometry) : Nat := g.n * g.c - g.skip.toNat

/-- The three tests of FRAME_ENC: the registers, legal one by one, do not fit together (43 R89). -/
def Geometry.inconsistent (g : Geometry) : Bool :=
  (g.skip && decide (g.sc ≥ g.c ∨ g.ss ≥ g.n)) || decide (g.h + g.p > g.w) || decide (g.w > g.h ∧ g.p = 0)

/-- The slots (column, sub-frame) that receive a byte, in the order of the two loops, the skipped one left out (43
R89). -/
def Geometry.slots (g : Geometry) : List (Nat × Nat) :=
  ((List.range g.c).flatMap (fun i => (List.range g.n).map (fun s => (i, s)))).filter
    (fun slot => !(g.skip && slot == (g.sc, g.ss)))

/-- The k-th byte of the frame: header first, then the payload modulo its length (43 R89). -/
def frameByte (g : Geometry) (hdr pay : Buf 8) (k : Nat) : Byte :=
  if k < g.h then Buf.read hdr k else Buf.read pay ((k - g.h) % g.p)

/-- The loop over the slots from written byte k on: each byte is folded into its sub-frame's bank and appended to the
written-byte sequence (43 R89). -/
def distribute (P : Params) (byteAt : Nat → Byte) : List (Nat × Nat) → Nat → Banks → Banks × List Byte
  | [], _, bs => (bs, [])
  | slot :: rest, k, bs =>
    let after := distribute P byteAt rest (k + 1) (rsUpdate P bs slot.2 (byteAt k))
    (after.1, byteAt k :: after.2)

/-- `for s in 0..N-1: rs_reset(s)` (43 R89). -/
def resetBanks (bs : Banks) (n : Nat) : Banks := (List.range n).foldl (fun b s => putBank b s freshBank) bs

/-- FRAME_ENC (43 R89). -/
def frameEncRule (P : Params) (s : State) : Reply :=
  let g := geometry s.cfg
  if g.inconsistent then .error .config
  else
    let done := distribute P (frameByte g s.hdr s.pay) g.slots 0 (resetBanks s.banks g.n)
    .ok (((s.withBanks done.1).withFrame (Buf.fill s.wb done.2) g.w g.n).withFrameValid true, lowHalf g.w)

/-- WB_RD (43 R93). -/
def wbRdRule (i : BitVec 24) (s : State) : Reply :=
  if s.frameValid = false then .error .sequence
  else if s.wCount ≤ i.toNat then .error .invalidArg
  else .ok (s, zextByte (Buf.read s.wb i.toNat))

/-! ### Meanings -/

/-- Meaning of HDR_WR (43 R80). -/
def execHdrWr (i : BitVec 12) (b : BitVec 8) (s : State) : Host.Outcome State Fault Refusal :=
  serve (.hdrWr i b) (hdrWrRule i b) s

/-- Meaning of HDR_RD (43 R81). -/
def execHdrRd (i : BitVec 24) (s : State) : Host.Outcome State Fault Refusal :=
  serve (.hdrRd i) (hdrRdRule i) s

/-- Meaning of PAY_WR (43 R82). -/
def execPayWr (i : BitVec 12) (b : BitVec 8) (s : State) : Host.Outcome State Fault Refusal :=
  serve (.payWr i b) (payWrRule machineParams i b) s

/-- Meaning of PAY_RD (43 R83). -/
def execPayRd (i : BitVec 24) (s : State) : Host.Outcome State Fault Refusal :=
  serve (.payRd i) (payRdRule machineParams i) s

/-- Meaning of HDR_PACK (43 R85). -/
def execHdrPack (s : State) : Host.Outcome State Fault Refusal :=
  serve .hdrPack hdrPackRule s

/-- Meaning of PAY_PACK_A (43 R86). -/
def execPayPackA (i v : BitVec 12) (s : State) : Host.Outcome State Fault Refusal :=
  serve (.payPackA i v) (payPackARule machineParams i v) s

/-- Meaning of PAY_PACK_B (43 R87). -/
def execPayPackB (i v : BitVec 12) (s : State) : Host.Outcome State Fault Refusal :=
  serve (.payPackB i v) (payPackBRule machineParams i v) s

/-- Meaning of BUF_CLR (43 R84). -/
def execBufClr (s : State) : Host.Outcome State Fault Refusal :=
  serve .bufClr bufClrRule s

/-- Meaning of FRAME_ENC (43 R89). -/
def execFrameEnc (s : State) : Host.Outcome State Fault Refusal :=
  serve .frameEnc (frameEncRule machineParams) s

/-- Meaning of WB_RD (43 R93). -/
def execWbRd (i : BitVec 24) (s : State) : Host.Outcome State Fault Refusal :=
  serve (.wbRd i) (wbRdRule i) s

end Sys2Proof.Machine
end

