-- ==== Sys2Proof/Machine/Line.lean ====
section
/-! DEFINITION. The 8b10b line encoder (spec 42): the lookup, the encoding of a byte sequence, and the commands ENC and
ENC.EOF. -/

namespace Sys2Proof.Machine

/-- A sequence of bytes through the line encoder from a disparity: the symbols in order and the disparity left (42 R72,
R78). -/
def encodeBytes (P : Params) : Disparity → List Byte → List Symbol × Disparity
  | rd, [] => ([], rd)
  | rd, b :: bs =>
    let one := P.encTab rd b
    let rest := encodeBytes P one.2 bs
    (one.1 :: rest.1, rest.2)

/-- The end-of-frame marker: the control pattern of RD, then RD inverted (42 R76). -/
def eofRule (s : State) : Reply := .ok (s.withRd s.rd.flip, zextSymbol (kcomma s.rd))

/-- ENC (42 R75, R77). -/
def encRule (P : Params) (v : Half) (s : State) : Reply :=
  if notEncodable v then .error .invalidArg
  else if v = Config.eofMarker then eofRule s
  else .ok (s.withRd (P.encTab s.rd (lowByte v)).2, zextSymbol (P.encTab s.rd (lowByte v)).1)

/-- Meaning of ENC.EOF (42 R76). -/
def execEncEof (s : State) : Host.Outcome State Fault Refusal :=
  serve .encEof eofRule s

/-- Meaning of ENC (42 R75). -/
def execEnc (v : BitVec 16) (s : State) : Host.Outcome State Fault Refusal :=
  serve (.enc v) (encRule machineParams v) s

end Sys2Proof.Machine
end

