-- ==== Sys2Proof/Machine/Modulator.lean ====
section
/-! DEFINITION. The waveform modulator (spec 45): the bit sequence of a cycle, the two modulations, and the commands
MOD_RUN, SMP_RD and SMP_RDB. -/

namespace Sys2Proof.Machine

/-- A signed integer as the 16-bit pattern of a sample (10 R25). -/
def toSample (x : Int) : Sample := BitVec.ofInt 16 x

/-- The sync preamble: SYNC_BITS bits of SYNC_WORD, highest first (45 R97). -/
def syncSequence (c : Cfg) : List Bool :=
  let word : Word := c.syncWordHi ++ c.syncWordLo
  (List.range c.syncBits.toNat).map (fun t => word.getLsbD (c.syncBits.toNat - 1 - t))

/-- The ten bits of a symbol, bit 9 first (45 R97). -/
def symbolBits (x : Symbol) : List Bool := (List.range 10).map (fun u => x.getLsbD (9 - u))

/-- B, the bits of one transmission cycle (45 R97). -/
def cycleBits (s : State) : List Bool :=
  syncSequence s.cfg ++ (List.range s.symCount).flatMap (fun k => symbolBits (Buf.read s.sym k))

/-- What MOD_RUN carries from bit to bit (45 R99). -/
structure Run where
  /-- The samples produced so far, the last one first. -/
  out : List Sample
  /-- CTR, samples produced so far. -/
  ctr : Nat
  /-- PHASE. -/
  phase : Phase
  /-- REV. -/
  rev : Nat
  deriving DecidableEq, Repr

/-- `for q in 1..SPB: MemWrite(SMP, CTR, f(CTR)); CTR = CTR + 1` (45 R99). -/
def emit (f : Nat → Int) : Nat → Run → Run
  | 0, m => m
  | q + 1, m => emit f q { m with out := toSample (f m.ctr) :: m.out, ctr := m.ctr + 1 }

/-- Edge smoothing: the sample j before the reversal becomes RAMP of it, for j up to S (45 R99); the list holds the
samples from j on, the last one first. -/
def attenuate (P : Params) (S : Nat) : Nat → List Sample → List Sample
  | _, [] => []
  | j, x :: xs => if j ≤ S then toSample (P.ramp x.toInt j S) :: attenuate P S (j + 1) xs else x :: xs

/-- What a 0 bit does before its own samples: smoothing, phase reversal, count (45 R99). -/
def reverse (P : Params) (S : Nat) (m : Run) : Run :=
  { m with out := attenuate P S 1 m.out, phase := m.phase.flip, rev := m.rev + 1 }

/-- One bit in FSK mode (45 R99). -/
def fskBit (P : Params) (spb : Nat) (m : Run) (b : Bool) : Run := emit (P.tone b) spb m

/-- One bit in BPSK mode (45 R99). -/
def bpskBit (P : Params) (spb S : Nat) (m : Run) (b : Bool) : Run :=
  let m' := if b then m else reverse P S m
  emit (fun n => m'.phase.sign * P.carrier n) spb m'

/-- The loop of MOD_RUN over the bits (45 R99); MODE other than 0 is BPSK. -/
def modulate (P : Params) (c : Cfg) (bits : List Bool) (m : Run) : Run :=
  if c.mode = 0 then bits.foldl (fskBit P c.spb.toNat) m
  else bits.foldl (bpskBit P c.spb.toNat c.smaller.toNat) m

/-- T, the samples of the cycle (45 R99). -/
def sampleTotal (s : State) : Nat := (s.cfg.syncBits.toNat + 10 * s.symCount) * s.cfg.spb.toNat

/-- MOD_RUN (45 R99). -/
def modRunRule (P : Params) (s : State) : Reply :=
  if s.symValid = false then .error .sequence
  else if P.smpMax < sampleTotal s then .error .config
  else
    let m := modulate P s.cfg (cycleBits s) { out := [], ctr := 0, phase := s.phase, rev := 0 }
    .ok ((s.withSamples (Buf.fill s.smp m.out.reverse) m.ctr).withPhase m.phase m.rev, lowHalf m.ctr)

/-- SMP_RD (45 R104). -/
def smpRdRule (i : BitVec 24) (s : State) : Reply :=
  if s.smpValid = false then .error .sequence
  else if s.smpCount ≤ i.toNat then .error .invalidArg
  else .ok (s, Buf.read s.smp i.toNat)

/-- The byte view SMPB: sample i at bytes 2i (low) and 2i+1 (high) (20 R34). -/
def sampleByte (smp : Buf 16) (i : Nat) : Byte :=
  if i % 2 = 0 then (Buf.read smp (i / 2)).extractLsb' 0 8 else (Buf.read smp (i / 2)).extractLsb' 8 8

/-- SMP_RDB (45 R105). -/
def smpRdbRule (i : BitVec 24) (s : State) : Reply :=
  if s.smpValid = false then .error .sequence
  else if 2 * s.smpCount ≤ i.toNat then .error .invalidArg
  else .ok (s, zextByte (sampleByte s.smp i.toNat))

/-- Meaning of MOD_RUN (45 R99). -/
def execModRun (s : State) : Host.Outcome State Fault Refusal :=
  serve .modRun (modRunRule machineParams) s

/-- Meaning of SMP_RD (45 R104). -/
def execSmpRd (i : BitVec 24) (s : State) : Host.Outcome State Fault Refusal :=
  serve (.smpRd i) (smpRdRule i) s

/-- Meaning of SMP_RDB (45 R105). -/
def execSmpRdb (i : BitVec 24) (s : State) : Host.Outcome State Fault Refusal :=
  serve (.smpRdb i) (smpRdbRule i) s

end Sys2Proof.Machine
end

