-- ==== Sys2Proof/Machine/Serializer.lean ====
section
/-! DEFINITION. The symbol serializer (spec 44): SYM_BUILD and SYM_RD. -/

namespace Sys2Proof.Machine

/-- The written bytes in written order (44 R94). -/
def writtenBytes (s : State) : List Byte := (List.range s.wCount).map (Buf.read s.wb)

/-- PAR[n][p] for a parity index below 32. -/
def parityByte (bs : Banks) (n p : Nat) : Byte := ((bankOf bs n).par[p]?).getD 0

/-- The parity bytes in feed order: by parity index, within it by sub-frame (44 R94, R95). -/
def parityBytes (s : State) : List Byte :=
  (List.range 32).flatMap (fun p => (List.range s.frameN).map (fun n => parityByte s.banks n p))

/-- SYM_BUILD (44 R94). -/
def symBuildRule (P : Params) (s : State) : Reply :=
  if s.frameValid = false then .error .sequence
  else
    let built := encodeBytes P s.rd (writtenBytes s ++ parityBytes s)
    .ok ((s.withRd built.2).withSymbols (Buf.fill s.sym built.1) built.1.length, lowHalf built.1.length)

/-- SYM_RD (44 R96). -/
def symRdRule (i : BitVec 24) (s : State) : Reply :=
  if s.symValid = false then .error .sequence
  else if s.symCount ≤ i.toNat then .error .invalidArg
  else .ok (s, zextSymbol (Buf.read s.sym i.toNat))

/-- Meaning of SYM_BUILD (44 R94). -/
def execSymBuild (s : State) : Host.Outcome State Fault Refusal :=
  serve .symBuild (symBuildRule machineParams) s

/-- Meaning of SYM_RD (44 R96). -/
def execSymRd (i : BitVec 24) (s : State) : Host.Outcome State Fault Refusal :=
  serve (.symRd i) (symRdRule i) s

end Sys2Proof.Machine
end

