-- ==== Sys2Proof/Machine/System.lean ====
section
/-! DEFINITION. The register map (spec 10 R27) and the system commands NOP, CFG_RD and CFG_WR (46 R106 to R108). -/

namespace Sys2Proof.Machine

/-- The read-only registers (10 R27). -/
inductive StatReg where
  | status
  | faultCode
  | faultInfo
  | wCount
  | symCount
  | smpCountLo
  | smpCountHi
  | revCount
  | frameN
  | rsStat (b : BitVec 3)
  deriving DecidableEq, Repr

/-- The writable registers (10 R27). -/
inductive CfgReg where
  | mode
  | nSf
  | cols
  | headerLen
  | payloadLen
  | skipEn
  | skipCol
  | skipSf
  | hdrId
  | hdrReset
  | hdrUptimeLo
  | hdrUptimeHi
  | hdrType
  | syncBits
  | syncWordLo
  | syncWordHi
  | spb
  | smaller
  deriving DecidableEq, Repr

/-- An assigned register, read-only or writable. -/
inductive Reg where
  | ro (r : StatReg)
  | rw (r : CfgReg)
  deriving DecidableEq, Repr

/-- The register of a number, none when the number is unassigned (10 R27, 46 R107). -/
def regOfNumber (P : Params) (n : Byte) : Option Reg :=
  match n.toNat with
  | 0x00 => some (.ro .status)
  | 0x01 => some (.ro .faultCode)
  | 0x02 => some (.ro .faultInfo)
  | 0x03 => some (.rw .mode)
  | 0x04 => some (.rw .nSf)
  | 0x05 => some (.rw .cols)
  | 0x06 => some (.rw .headerLen)
  | 0x07 => some (.rw .payloadLen)
  | 0x08 => some (.rw .skipEn)
  | 0x09 => some (.rw .skipCol)
  | 0x0A => some (.rw .skipSf)
  | 0x0B => some (.rw .hdrId)
  | 0x0C => some (.rw .hdrReset)
  | 0x0D => some (.rw .hdrUptimeLo)
  | 0x0E => some (.rw .hdrUptimeHi)
  | 0x0F => some (.rw .hdrType)
  | 0x10 => some (.rw .syncBits)
  | 0x11 => some (.rw .syncWordLo)
  | 0x12 => some (.rw .syncWordHi)
  | 0x13 => some (.rw .spb)
  | 0x14 => some (.rw .smaller)
  | 0x15 => some (.ro .wCount)
  | 0x16 => some (.ro .symCount)
  | 0x17 => some (.ro .smpCountLo)
  | 0x18 => some (.ro .smpCountHi)
  | 0x19 => some (.ro .revCount)
  | 0x1A => some (.ro .frameN)
  | m => if 0x20 ≤ m ∧ m < 0x20 + P.nMax then some (.ro (.rsStat (BitVec.ofNat 3 (m - 0x20)))) else none

/-- The value of a read-only register (10 R27 to R29). -/
def readStat (s : State) : StatReg → Half
  | .status => statusValue s
  | .faultCode => s.faultOp ++ s.faultCode
  | .faultInfo => s.faultInfo
  | .wCount => (BitVec.ofNat 11 s.wCount).setWidth 16
  | .symCount => (BitVec.ofNat 11 s.symCount).setWidth 16
  | .smpCountLo => BitVec.ofNat 16 s.smpCount
  | .smpCountHi => (BitVec.ofNat 8 (s.smpCount / 2 ^ 16)).setWidth 16
  | .revCount => BitVec.ofNat 16 s.revCount
  | .frameN => (BitVec.ofNat 4 s.frameN).setWidth 16
  | .rsStat b => rsStatValue (bankOf s.banks b.toNat)

/-- The value of a writable register, with zeros above its width (10 R27). -/
def readCfg (c : Cfg) : CfgReg → Half
  | .mode => c.mode.setWidth 16
  | .nSf => c.nSf.setWidth 16
  | .cols => c.cols.setWidth 16
  | .headerLen => c.headerLen.setWidth 16
  | .payloadLen => c.payloadLen.setWidth 16
  | .skipEn => c.skipEn.setWidth 16
  | .skipCol => c.skipCol.setWidth 16
  | .skipSf => c.skipSf.setWidth 16
  | .hdrId => c.hdrId.setWidth 16
  | .hdrReset => c.hdrReset
  | .hdrUptimeLo => c.hdrUptimeLo
  | .hdrUptimeHi => c.hdrUptimeHi.setWidth 16
  | .hdrType => c.hdrType.setWidth 16
  | .syncBits => c.syncBits.setWidth 16
  | .syncWordLo => c.syncWordLo
  | .syncWordHi => c.syncWordHi
  | .spb => c.spb
  | .smaller => c.smaller

/-- `CFG[reg]` (00 R12). -/
def readReg (s : State) : Reg → Half
  | .ro r => readStat s r
  | .rw r => readCfg s.cfg r

/-- The legal values of a writable register (10 R27). -/
def legalValue (P : Params) : CfgReg → Nat → Bool
  | .mode, v => decide (v ≤ 1)
  | .nSf, v => decide (1 ≤ v ∧ v ≤ P.nMax)
  | .cols, v => decide (1 ≤ v ∧ v ≤ 223)
  | .headerLen, v => decide (v ≤ 6)
  | .payloadLen, v => decide (v ≤ P.payMax)
  | .skipEn, v => decide (v ≤ 1)
  | .skipCol, v => decide (v ≤ 222)
  | .skipSf, v => decide (v < P.nMax)
  | .hdrId, v => decide (v ≤ 7)
  | .hdrReset, v => decide (v ≤ 65535)
  | .hdrUptimeLo, v => decide (v ≤ 65535)
  | .hdrUptimeHi, v => decide (v ≤ 511)
  | .hdrType, v => decide (v ≤ 15)
  | .syncBits, v => decide (v ≤ 32)
  | .syncWordLo, v => decide (v ≤ 65535)
  | .syncWordHi, v => decide (v ≤ 65535)
  | .spb, v => decide (1 ≤ v ∧ v ≤ 65535)
  | .smaller, v => decide (v ≤ 65535)

/-- `CFG[reg] <- v` for a writable register (00 R12). -/
def writeCfg (c : Cfg) (r : CfgReg) (v : Half) : Cfg :=
  match r with
  | .mode => { c with mode := v.setWidth 2 }
  | .nSf => { c with nSf := v.setWidth 4 }
  | .cols => { c with cols := v.setWidth 8 }
  | .headerLen => { c with headerLen := v.setWidth 3 }
  | .payloadLen => { c with payloadLen := v.setWidth 13 }
  | .skipEn => { c with skipEn := v.setWidth 1 }
  | .skipCol => { c with skipCol := v.setWidth 8 }
  | .skipSf => { c with skipSf := v.setWidth 3 }
  | .hdrId => { c with hdrId := v.setWidth 3 }
  | .hdrReset => { c with hdrReset := v }
  | .hdrUptimeLo => { c with hdrUptimeLo := v }
  | .hdrUptimeHi => { c with hdrUptimeHi := v.setWidth 9 }
  | .hdrType => { c with hdrType := v.setWidth 4 }
  | .syncBits => { c with syncBits := v.setWidth 6 }
  | .syncWordLo => { c with syncWordLo := v }
  | .syncWordHi => { c with syncWordHi := v }
  | .spb => { c with spb := v }
  | .smaller => { c with smaller := v }

/-- NOP (46 R106). -/
def nopRule (s : State) : Reply := .ok (s, 0)

/-- CFG_RD (46 R107). -/
def cfgRdRule (P : Params) (reg : Byte) (s : State) : Reply :=
  match regOfNumber P reg with
  | none => .error .invalidArg
  | some r => .ok (s, readReg s r)

/-- CFG_WR (46 R108). -/
def cfgWrRule (P : Params) (reg : Byte) (val : Half) (s : State) : Reply :=
  match regOfNumber P reg with
  | none => .error .invalidArg
  | some (.ro _) => .error .invalidArg
  | some (.rw r) =>
    if legalValue P r val.toNat then .ok (s.withCfg (writeCfg s.cfg r val), 0) else .error .invalidArg

/-- Meaning of NOP; it is served while FAULT = 1 too (46 R106). -/
def execNop (s : State) : Host.Outcome State Fault Refusal :=
  serveAlways .nop nopRule s

/-- Meaning of CFG_RD; it is served while FAULT = 1 too (46 R107). -/
def execCfgRd (reg : BitVec 8) (s : State) : Host.Outcome State Fault Refusal :=
  serveAlways (.cfgRd reg) (cfgRdRule machineParams reg) s

/-- Meaning of CFG_WR (46 R108). -/
def execCfgWr (reg : BitVec 8) (val : BitVec 16) (s : State) : Host.Outcome State Fault Refusal :=
  serve (.cfgWr reg val) (cfgWrRule machineParams reg val) s

end Sys2Proof.Machine
end

