-- ==== Sys2Proof/Machine/Dispatch.lean ====
section
/-! DEFINITION. One arm per command, each one call of its meaning. -/

namespace Sys2Proof.Machine

/-- What a command does to the state (spec 30 R49). -/
def exec (i : Instr) (s : State) : Host.Outcome State Fault Refusal :=
  match i with
  | .nop => Sys2Proof.Machine.execNop s
  | .cfgRd reg => Sys2Proof.Machine.execCfgRd reg s
  | .cfgWr reg val => Sys2Proof.Machine.execCfgWr reg val s
  | .gfLog v => Sys2Proof.Machine.execGfLog v s
  | .gfAlog v => Sys2Proof.Machine.execGfAlog v s
  | .gfModexp v => Sys2Proof.Machine.execGfModexp v s
  | .rsReset b => Sys2Proof.Machine.execRsReset b s
  | .rsUpdate b v => Sys2Proof.Machine.execRsUpdate b v s
  | .rsRd b k => Sys2Proof.Machine.execRsRd b k s
  | .encEof => Sys2Proof.Machine.execEncEof s
  | .enc v => Sys2Proof.Machine.execEnc v s
  | .hdrWr k b => Sys2Proof.Machine.execHdrWr k b s
  | .hdrRd k => Sys2Proof.Machine.execHdrRd k s
  | .payWr k b => Sys2Proof.Machine.execPayWr k b s
  | .payRd k => Sys2Proof.Machine.execPayRd k s
  | .hdrPack => Sys2Proof.Machine.execHdrPack s
  | .payPackA k v => Sys2Proof.Machine.execPayPackA k v s
  | .payPackB k v => Sys2Proof.Machine.execPayPackB k v s
  | .bufClr => Sys2Proof.Machine.execBufClr s
  | .frameEnc => Sys2Proof.Machine.execFrameEnc s
  | .wbRd k => Sys2Proof.Machine.execWbRd k s
  | .symBuild => Sys2Proof.Machine.execSymBuild s
  | .symRd k => Sys2Proof.Machine.execSymRd k s
  | .modRun => Sys2Proof.Machine.execModRun s
  | .smpRd k => Sys2Proof.Machine.execSmpRd k s
  | .smpRdb k => Sys2Proof.Machine.execSmpRdb k s

end Sys2Proof.Machine
end

