-- ==== Sys2Proof/Machine/Step.lean ====
section
/-! DEFINITION. One step: the hardware takes what the host presents next, one whole command at a time (spec 00 R5, 20
R40). -/

namespace Sys2Proof.Machine

/-- One step. With nothing presented the hardware waits and holds its state (60 R125, 70 R126). -/
def step (s : State) : Host.Outcome State Fault Refusal :=
  match fetch s with
  | (.idle, t) => .next t
  | (.hardReset, t) => .next t.hardReset
  | (.command i, t) => exec i t
  | (.illegal c, t) => execIllegal c t

/-- The host presents a table row's word as the next command. -/
def State.withFetchWord (s : State) (nbits w : Nat) : State := s.present (tableWord nbits w)

end Sys2Proof.Machine
end

