-- ==== Sys2Proof/Safety.lean ====
section
/-! DEFINITION. The terms the statements use: what a state looks like after a completed command and after an error,
what a legal state is, and the spec's closed forms (the parity of a byte sequence, the slot map, the bit sequence of a
cycle). None of them is used by the machine. -/

namespace Sys2Proof.Machine

/-! ### How a command ends -/

/-- The state after a command that completed with a result and changed nothing else (30 R48). -/
def State.completed (s : State) (result : Half) : State := { s with response := some (responseWord 0 result) }

/-- The state after an error of the given code on a command word with this opcode byte and these low 16 bits (60
R116). -/
def State.afterError (s : State) (code op : Byte) (info : Half) : State :=
  if s.fault then { s with response := some (responseWord code 0) }
  else { s with
    fault := true, faultCode := code, faultOp := op, faultInfo := info,
    response := some (responseWord code 0) }

/-- How CFG_WR of a value `v` ends when the legal values are those of `legal` and the written
registers would be `c` (46 R108). -/
def cfgWrOutcome (s : State) (v : Half) (legal : Prop) [Decidable legal] (c : Cfg) :
    Host.Outcome State Fault Refusal :=
  if legal then .next { s with cfg := c, response := some (responseWord 0 0) }
  else .next (s.afterError 2 0x02 v)

/-! ### Legal states -/

/-- Every register holds a legal value (10 R27). -/
def Cfg.Legal (c : Cfg) : Prop :=
  c.mode.toNat ≤ 1 ∧ (1 ≤ c.nSf.toNat ∧ c.nSf.toNat ≤ 8) ∧ (1 ≤ c.cols.toNat ∧ c.cols.toNat ≤ 223) ∧
    c.headerLen.toNat ≤ 6 ∧ c.payloadLen.toNat ≤ 2048 ∧ c.skipCol.toNat ≤ 222 ∧ c.syncBits.toNat ≤ 32 ∧
    1 ≤ c.spb.toNat

/-- The spaces are in canonical form and hold nothing outside their index range (20 R32). -/
def State.MemoryLegal (s : State) : Prop :=
  (Buf.wf s.hdr = true ∧ Buf.below 6 s.hdr = true) ∧ (Buf.wf s.pay = true ∧ Buf.below 2048 s.pay = true) ∧
    (Buf.wf s.wb = true ∧ Buf.below 1784 s.wb = true) ∧ (Buf.wf s.sym = true ∧ Buf.below 2040 s.sym = true) ∧
    (Buf.wf s.smp = true ∧ Buf.below (2 ^ 23) s.smp = true)

/-- The counters stay in the ranges the spec gives them (10 R15). -/
def State.CountsLegal (s : State) : Prop :=
  (∀ n, n < 8 → (bankOf s.banks n).cnt ≤ 223) ∧ s.wCount ≤ 1784 ∧ s.frameN ≤ 8 ∧ s.symCount ≤ 2040 ∧
    s.smpCount ≤ 2 ^ 23 ∧ s.revCount ≤ 65535

/-- What a set flag stands for: a bank never zeroed has folded nothing (10 R18); a valid frame has a sub-frame, and its
banks are active (10 R23); a symbol stream has at least its 32 parity symbols (45 R99 (j)). -/
def State.FlagsLegal (s : State) : Prop :=
  (∀ n, n < 8 → (bankOf s.banks n).act = false → (bankOf s.banks n).cnt = 0) ∧
    (s.frameValid = true → 1 ≤ s.frameN ∧ ∀ n, n < s.frameN → (bankOf s.banks n).act = true) ∧
    (s.symValid = true → 32 ≤ s.symCount)

/-- The fault record is blank until the first error and then holds the code of an error that can come first (10 R29,
60 R116). -/
def State.RecordLegal (s : State) : Prop :=
  (s.fault = false → s.faultCode = 0 ∧ s.faultOp = 0 ∧ s.faultInfo = 0) ∧
    (s.fault = true → 1 ≤ s.faultCode.toNat ∧ s.faultCode.toNat ≤ 4)

/-- The invariant of the machine. -/
def State.Inv (s : State) : Prop :=
  s.MemoryLegal ∧ s.CountsLegal ∧ s.FlagsLegal ∧ s.RecordLegal ∧ s.cfg.Legal

/-! ### Reed-Solomon -/

/-- The parity of a byte sequence: the bytes folded one after another into a bank of zeros (41 R68). -/
def parityOf (P : Params) (bytes : List Byte) : Vector Byte 32 :=
  bytes.foldl (rsFold P) (Vector.replicate 32 0)

/-- The XOR of two byte sequences, byte by byte (41 R70). -/
def xorBytes (a b : List Byte) : List Byte := List.zipWith (fun x y => x ^^^ y) a b

/-- A polynomial, highest coefficient first, at a field element (41 R69). -/
def evalAt (P : Params) (r : Byte) (coefficients : List Byte) : Byte :=
  coefficients.foldl (fun acc c => fieldMul P acc r ^^^ c) 0

/-- The roots alpha^(11*(112+i)) of the generator (41 R62). -/
def generatorRoot (P : Params) (i : Nat) : Byte := P.alog (BitVec.ofNat 8 (modexp (11 * (112 + i))))

/-- Multiplication by x of a polynomial over GF(2) modulo x^8 + x^7 + x^2 + x + 1 (40 R54). -/
def timesX (a : Byte) : Byte := if a.msb then (a <<< 1) ^^^ 0x87 else a <<< 1

/-- Multiplication of polynomials over GF(2) modulo 0x187, by the low `n` bits of the second factor (40 R57). -/
def polyMul (a b : Byte) : Nat → Byte
  | 0 => 0
  | n + 1 => (if b.getLsbD 0 then a else 0) ^^^ polyMul (timesX a) (b >>> 1) n

/-- XOR `t` into one byte of a bank. -/
def xorAt (par : Vector Byte 32) (k : Nat) (t : Byte) : Vector Byte 32 :=
  par.setIfInBounds k ((par[k]?).getD 0 ^^^ t)

/-- `rs_update` on the bytes of a bank as the loops of 41 R64 are printed: j from 1 to 15 with the two mirrored bytes,
the centre, the shift by ascending k, the last byte. -/
def rsUpdateLoops (P : Params) (par : Vector Byte 32) (b : Byte) : Vector Byte 32 :=
  let fb := P.log (b ^^^ par[0])
  let accumulated :=
    if fb = Config.sentinel then par
    else
      let mirrored := (List.range 15).foldl (fun v m =>
        let t := P.alog (BitVec.ofNat 8 (modexp (fb.toNat + (P.gen (m + 1)).toNat)))
        xorAt (xorAt v (m + 1) t) (32 - (m + 1)) t) par
      xorAt mirrored 16 (P.alog (BitVec.ofNat 8 (modexp (fb.toNat + (P.gen 16).toNat))))
  let shifted := (List.range 31).foldl (fun v k => v.setIfInBounds k ((v[k + 1]?).getD 0)) accumulated
  shifted.setIfInBounds 31 (P.alog fb)

/-! ### Line code -/

/-- The bits of a symbol sequence in transmission order (42 R73, 45 R97). -/
def streamBits (syms : List Symbol) : List Bool := syms.flatMap symbolBits

/-- 1 for positive disparity, 0 for negative (10 R20). -/
def disparityLevel : Disparity → Int
  | .neg => 0
  | .pos => 1

/-! ### Frames -/

/-- Where written byte `k` stands in the column-major order of all slots, `z` being the skipped one (43 R90). -/
def slotOf (z k : Nat) : Nat := if k < z then k else k + 1

/-- The written bytes sub-frame `sub` of `n` folds, in order (43 R90). -/
def foldedBy (byteAt : Nat → Byte) (w n z sub : Nat) : List Byte :=
  ((List.range w).filter (fun k => slotOf z k % n == sub)).map byteAt

/-- FRAME_VALID = 1 means that WB and the banks together hold one complete encoded frame (10 R23): for some number of
columns and some skipped slot, bank `sub` holds the parity of exactly the written bytes that the slot map deals to
it. -/
def State.FrameConsistent (s : State) : Prop :=
  s.frameValid = true →
    ∃ cols z, s.wCount = s.frameN * cols - (if z < s.frameN * cols then 1 else 0) ∧
      ∀ sub, sub < s.frameN →
        bankOf s.banks sub =
          { act := true, cnt := (foldedBy (Buf.read s.wb) s.wCount s.frameN z sub).length,
            par := parityOf machineParams (foldedBy (Buf.read s.wb) s.wCount s.frameN z sub) }

/-! ### The cycle of the modulator -/

/-- B[t], bit `t` of the transmission cycle (45 R97). -/
def cycleBit (s : State) (t : Nat) : Bool :=
  if t < s.cfg.syncBits.toNat then
    (s.cfg.syncWordHi ++ s.cfg.syncWordLo).getLsbD (s.cfg.syncBits.toNat - 1 - t)
  else
    (Buf.read s.sym ((t - s.cfg.syncBits.toNat) / 10)).getLsbD (9 - (t - s.cfg.syncBits.toNat) % 10)

/-- The number of bits of the cycle (45 R97). -/
def cycleLength (s : State) : Nat := s.cfg.syncBits.toNat + 10 * s.symCount

/-- The number of 0 bits among the first `n` bits of the cycle. -/
def zerosBefore (s : State) (n : Nat) : Nat := ((List.range n).filter (fun t => cycleBit s t == false)).length

/-- PHASE after `n` reversals (45 R100 (c)). -/
def phaseAfter (p : Phase) (n : Nat) : Phase := if n % 2 = 0 then p else p.flip

/-- Whether bit `t` of the cycle is a 0 bit whose reversal attenuates sample `c`: the sample is one of the SMALLER
samples produced last before that bit (45 R99). -/
def attenuates (s : State) (c t : Nat) : Bool :=
  cycleBit s t == false && decide (c < t * s.cfg.spb.toNat ∧ t * s.cfg.spb.toNat ≤ c + s.cfg.smaller.toNat)

/-- The bits whose reversals attenuate sample `c`, in order (45 R99). -/
def attenuatingBits (s : State) (c : Nat) : List Nat := (List.range (cycleLength s)).filter (attenuates s c)

/-- RAMP of a value of sample `c` before the reversal of bit `t`, at the distance of the sample and the length SMALLER
(45 R99 (e)). -/
def rampBefore (s : State) (c : Nat) (v : Int) (t : Nat) : Int :=
  ramp v (t * s.cfg.spb.toNat - c) s.cfg.smaller.toNat

end Sys2Proof.Machine
end

