-- ==== Sys2Proof/Certificates/Slice0/Obligations.lean ====
section
/-! DEFINITION. The statements for the provers. `s.fault = false` is the one condition under which every command but
NOP and CFG_RD runs its rule (spec 60 R117). -/

open Sys2Proof Sys2Proof.Machine

/-! ### Step, port and reset -/

/-- When the host presents a word that decodes, the step runs that command on the state with the word taken off the
port (00 R5, 20 R40; the port is the model's, log entry 1). -/
def Obligations.StepRunsTheDecodedCommand : Prop :=
  ∀ (s : State) (c : Word) (rest : List HostInput) (i : Instr),
    s.inbox = .command c :: rest → decode c = .ok i → step s = exec i { s with inbox := rest }

/-- A word that decodes to no command is answered E_ILLEGAL_OP with the fault record, E_FAULTED while FAULT = 1 (30
R50, R51; 60 R115).
The port is the model's (log entry 1). -/
def Obligations.StepAnswersIllegalWords : Prop :=
  ∀ (s : State) (c : Word) (rest : List HostInput) (e : IllegalWord),
    s.inbox = .command c :: rest → decode c = .error e →
      step s = .next (if s.fault then { s with inbox := rest, response := some (responseWord 5 0) }
        else { s with
          inbox := rest, fault := true, faultCode := 1, faultOp := c.extractLsb' 24 8,
          faultInfo := c.extractLsb' 0 16, response := some (responseWord 1 0) })

/-- The hardware reset puts every piece of state at its reset value, from any state, the faulted one too (70 R126; what
the host presents after it stays at the port, log entry 1; the contents of PAR, WB, SYM and SMP after it are the model's
choice, log entry 5). -/
def Obligations.HardResetRestoresTheResetState : Prop :=
  ∀ (s : State) (rest : List HostInput), s.inbox = .hardReset :: rest →
    step s = .next { State.reset with inbox := rest }

/-- The reset values the spec gives (70 R127). -/
def Obligations.ResetStateHoldsTheSpecValues : Prop :=
  (∀ n, n < 8 → (bankOf State.reset.banks n).act = false ∧ (bankOf State.reset.banks n).cnt = 0) ∧
    State.reset.rd = .neg ∧ (∀ i, Buf.read State.reset.hdr i = 0) ∧ (∀ i, Buf.read State.reset.pay i = 0) ∧
    State.reset.wCount = 0 ∧ State.reset.frameN = 0 ∧ State.reset.frameValid = false ∧
    State.reset.symCount = 0 ∧ State.reset.symValid = false ∧
    State.reset.smpCount = 0 ∧ State.reset.smpValid = false ∧
    State.reset.phase = .plus ∧ State.reset.revCount = 0 ∧
    State.reset.fault = false ∧ State.reset.faultCode = 0 ∧ State.reset.faultOp = 0 ∧
    State.reset.faultInfo = 0 ∧
    State.reset.cfg =
      { mode := 0, nSf := 1, cols := 223, headerLen := 6, payloadLen := 217, skipEn := 0, skipCol := 0,
        skipSf := 0, hdrId := 0, hdrReset := 0, hdrUptimeLo := 0, hdrUptimeHi := 0, hdrType := 0,
        syncBits := 10, syncWordLo := 0x00FA, syncWordHi := 0x0000, spb := 1, smaller := 0 }

/-! ### Encoding -/

/-- Decoding the encoding of a well-formed command gives it back, with every operand (30 R45 to R49). -/
def Obligations.DecodeEncodeRoundTrip : Prop :=
  ∀ i : Instr, i.wf = true → decode (encode i) = .ok i

/-- Every legal word is the encoding of the well-formed command it decodes to: no bit of it is dropped (30 R46, R50). -/
def Obligations.EncodeDecodeRoundTrip : Prop :=
  ∀ (c : Word) (i : Instr), decode c = .ok i → encode i = c ∧ i.wf = true

/-- The decoder selects the first row of the opcode map that matches and refuses a word that matches none (30 R49). -/
def Obligations.DecodeFollowsTheOpcodeMap : Prop :=
  opcodeMap.length = 26 ∧
    ∀ c : Word, firstRow c =
      match decode c with
      | .ok i => some i.mnemonic
      | .error _ => none

/-- The command words written out in the command rules (40 to 46), in the syntax rule and in the decoding vectors decode
to the commands they stand for, and the illegal words there to none (30 R49, R50, R52; 95 V-SYS-3). HDR_PACK and FRAME_ENC
have no written example; their words are their rows' of the opcode map. -/
def Obligations.WordsOfTheSpecDecode : Prop :=
  (decode 0x00000000 = .ok .nop ∧ decode 0x01000000 = .ok (.cfgRd 0x00) ∧
    decode 0x01050000 = .ok (.cfgRd 0x05) ∧ decode 0x01210000 = .ok (.cfgRd 0x21) ∧
    decode 0x02000000 = .ok (.cfgWr 0x00 0) ∧ decode 0x02040002 = .ok (.cfgWr 0x04 2) ∧
    decode 0x02130004 = .ok (.cfgWr 0x13 4) ∧ decode 0x02FFFFFF = .ok (.cfgWr 0xFF 0xFFFF)) ∧
  (decode 0x10000002 = .ok (.gfLog 2) ∧ decode 0x1000FFFF = .ok (.gfLog 0xFFFF) ∧
    decode 0x11000008 = .ok (.gfAlog 8) ∧ decode 0x120001FD = .ok (.gfModexp 509)) ∧
  (decode 0x20020000 = .ok (.rsReset 2) ∧ decode 0x20070000 = .ok (.rsReset 7) ∧
    decode 0x21000001 = .ok (.rsUpdate 0 1) ∧ decode 0x21000041 = .ok (.rsUpdate 0 0x41) ∧
    decode 0x2107FFFF = .ok (.rsUpdate 7 0xFFFF) ∧ decode 0x2200001F = .ok (.rsRd 0 31) ∧
    decode 0x2201001F = .ok (.rsRd 1 31) ∧ decode 0x2207001F = .ok (.rsRd 7 31)) ∧
  (decode 0x3000FFFF = .ok .encEof ∧ decode 0x30000000 = .ok (.enc 0) ∧ decode 0x30000100 = .ok (.enc 0x100) ∧
    decode 0x3000FFFE = .ok (.enc 0xFFFE)) ∧
  (decode 0x40000029 = .ok (.hdrWr 0 0x29) ∧ decode 0x40000530 = .ok (.hdrWr 5 0x30) ∧
    decode 0x400FFFFF = .ok (.hdrWr 0xFFF 0xFF) ∧ decode 0x41000005 = .ok (.hdrRd 5) ∧
    decode 0x41FFFFFF = .ok (.hdrRd 0xFFFFFF) ∧ decode 0x42000AFF = .ok (.payWr 10 0xFF) ∧
    decode 0x43000001 = .ok (.payRd 1) ∧ decode 0x44000000 = .ok .hdrPack ∧
    decode 0x45000ABC = .ok (.payPackA 0 0xABC) ∧ decode 0x45003ABC = .ok (.payPackA 3 0xABC) ∧
    decode 0x45FFFFFF = .ok (.payPackA 0xFFF 0xFFF) ∧ decode 0x46001DEF = .ok (.payPackB 1 0xDEF) ∧
    decode 0x47000000 = .ok .bufClr ∧ decode 0x48000000 = .ok .frameEnc ∧ decode 0x49000000 = .ok (.wbRd 0)) ∧
  (decode 0x50000000 = .ok .symBuild ∧ decode 0x51000000 = .ok (.symRd 0)) ∧
  (decode 0x60000000 = .ok .modRun ∧ decode 0x61000000 = .ok (.smpRd 0) ∧ decode 0x62000001 = .ok (.smpRdb 1)) ∧
  (decode 0x00000001 = .error (.reservedBitSet 0x00) ∧ decode 0x01000001 = .error (.reservedBitSet 0x01) ∧
    decode 0x0105FFFF = .error (.reservedBitSet 0x01) ∧ decode 0x03000000 = .error (.unassignedOpcode 0x03) ∧
    decode 0x10010000 = .error (.reservedBitSet 0x10) ∧ decode 0x20080000 = .error (.reservedBitSet 0x20) ∧
    decode 0x20000001 = .error (.reservedBitSet 0x20) ∧ decode 0x22000020 = .error (.reservedBitSet 0x22) ∧
    decode 0x3001FFFF = .error (.reservedBitSet 0x30) ∧ decode 0x40100000 = .error (.reservedBitSet 0x40) ∧
    decode 0x44000001 = .error (.reservedBitSet 0x44) ∧ decode 0x4A000000 = .error (.unassignedOpcode 0x4A) ∧
    decode 0x50000100 = .error (.reservedBitSet 0x50) ∧ decode 0x63000000 = .error (.unassignedOpcode 0x63) ∧
    decode 0xFFFFFFFF = .error (.unassignedOpcode 0xFF))

/-! ### System commands -/

/-- NOP responds 0 and changes nothing, while FAULT = 1 too (46 R106). -/
def Obligations.NopRespondsZero : Prop :=
  encode .nop = 0x00000000 ∧ ∀ s : State, exec .nop s = .next (s.completed 0)

/-- CFG_RD of every writable register returns it with zeros above its width, while FAULT = 1 too (10 R27, 46 R107). -/
def Obligations.CfgRdReturnsWritableRegisters : Prop :=
  ∀ s : State,
    exec (.cfgRd 0x03) s = .next (s.completed (s.cfg.mode.setWidth 16)) ∧
    exec (.cfgRd 0x04) s = .next (s.completed (s.cfg.nSf.setWidth 16)) ∧
    exec (.cfgRd 0x05) s = .next (s.completed (s.cfg.cols.setWidth 16)) ∧
    exec (.cfgRd 0x06) s = .next (s.completed (s.cfg.headerLen.setWidth 16)) ∧
    exec (.cfgRd 0x07) s = .next (s.completed (s.cfg.payloadLen.setWidth 16)) ∧
    exec (.cfgRd 0x08) s = .next (s.completed (s.cfg.skipEn.setWidth 16)) ∧
    exec (.cfgRd 0x09) s = .next (s.completed (s.cfg.skipCol.setWidth 16)) ∧
    exec (.cfgRd 0x0A) s = .next (s.completed (s.cfg.skipSf.setWidth 16)) ∧
    exec (.cfgRd 0x0B) s = .next (s.completed (s.cfg.hdrId.setWidth 16)) ∧
    exec (.cfgRd 0x0C) s = .next (s.completed s.cfg.hdrReset) ∧
    exec (.cfgRd 0x0D) s = .next (s.completed s.cfg.hdrUptimeLo) ∧
    exec (.cfgRd 0x0E) s = .next (s.completed (s.cfg.hdrUptimeHi.setWidth 16)) ∧
    exec (.cfgRd 0x0F) s = .next (s.completed (s.cfg.hdrType.setWidth 16)) ∧
    exec (.cfgRd 0x10) s = .next (s.completed (s.cfg.syncBits.setWidth 16)) ∧
    exec (.cfgRd 0x11) s = .next (s.completed s.cfg.syncWordLo) ∧
    exec (.cfgRd 0x12) s = .next (s.completed s.cfg.syncWordHi) ∧
    exec (.cfgRd 0x13) s = .next (s.completed s.cfg.spb) ∧
    exec (.cfgRd 0x14) s = .next (s.completed s.cfg.smaller)

/-- CFG_RD of every status register returns the state it is a copy of; an unassigned number is E_INVALID_ARG, while
FAULT = 1 too. The counters are in the ranges of 10 R15, which `CountsLegal` says (10 R27 to R29, 46 R107).
The last RS_STAT is that of bank 7 (N_MAX = 8, log entry 2). -/
def Obligations.CfgRdReturnsStatusRegisters : Prop :=
  ∀ s : State, s.CountsLegal →
    (∃ v : Half, exec (.cfgRd 0x00) s = .next (s.completed v) ∧ v.getLsbD 0 = s.fault ∧
      v.getLsbD 1 = s.rd.bit ∧ v.getLsbD 2 = s.frameValid ∧ v.getLsbD 3 = s.symValid ∧
      v.getLsbD 4 = s.smpValid ∧ v.getLsbD 5 = decide (s.phase = .minus) ∧ v.extractLsb' 6 10 = 0) ∧
    (∃ v : Half, exec (.cfgRd 0x01) s = .next (s.completed v) ∧ v.extractLsb' 0 8 = s.faultCode ∧
      v.extractLsb' 8 8 = s.faultOp) ∧
    exec (.cfgRd 0x02) s = .next (s.completed s.faultInfo) ∧
    (∃ v : Half, exec (.cfgRd 0x15) s = .next (s.completed v) ∧ v.toNat = s.wCount) ∧
    (∃ v : Half, exec (.cfgRd 0x16) s = .next (s.completed v) ∧ v.toNat = s.symCount) ∧
    (∃ lo hi : Half, exec (.cfgRd 0x17) s = .next (s.completed lo) ∧
      exec (.cfgRd 0x18) s = .next (s.completed hi) ∧ hi.toNat * 2 ^ 16 + lo.toNat = s.smpCount) ∧
    (∃ v : Half, exec (.cfgRd 0x19) s = .next (s.completed v) ∧ v.toNat = s.revCount) ∧
    (∃ v : Half, exec (.cfgRd 0x1A) s = .next (s.completed v) ∧ v.toNat = s.frameN) ∧
    (∀ b : BitVec 3, ∃ v : Half, exec (.cfgRd (0x20 + b.setWidth 8)) s = .next (s.completed v) ∧
      v.toNat = (bankOf s.banks b.toNat).cnt + (if (bankOf s.banks b.toNat).act then 256 else 0)) ∧
    (∀ n : Byte, (0x1A < n.toNat ∧ n.toNat < 0x20) ∨ 0x28 ≤ n.toNat →
      exec (.cfgRd n) s = .next (s.afterError 2 0x01 0))

/-- CFG_WR of every writable register: a legal value is stored in that register and in no other, any other value is
E_INVALID_ARG and changes no register, and so is any value for a read-only or unassigned number (10 R27, 46 R108).
The ranges of N_SF, PAYLOAD_LEN and SKIP_SF are those of the default sizes (log entry 2). -/
def Obligations.CfgWrStoresLegalValues : Prop :=
  ∀ (s : State) (v : Half), s.fault = false →
    exec (.cfgWr 0x03 v) s = cfgWrOutcome s v (v.toNat ≤ 1) { s.cfg with mode := v.setWidth 2 } ∧
    exec (.cfgWr 0x04 v) s = cfgWrOutcome s v (1 ≤ v.toNat ∧ v.toNat ≤ 8) { s.cfg with nSf := v.setWidth 4 } ∧
    exec (.cfgWr 0x05 v) s = cfgWrOutcome s v (1 ≤ v.toNat ∧ v.toNat ≤ 223) { s.cfg with cols := v.setWidth 8 } ∧
    exec (.cfgWr 0x06 v) s = cfgWrOutcome s v (v.toNat ≤ 6) { s.cfg with headerLen := v.setWidth 3 } ∧
    exec (.cfgWr 0x07 v) s = cfgWrOutcome s v (v.toNat ≤ 2048) { s.cfg with payloadLen := v.setWidth 13 } ∧
    exec (.cfgWr 0x08 v) s = cfgWrOutcome s v (v.toNat ≤ 1) { s.cfg with skipEn := v.setWidth 1 } ∧
    exec (.cfgWr 0x09 v) s = cfgWrOutcome s v (v.toNat ≤ 222) { s.cfg with skipCol := v.setWidth 8 } ∧
    exec (.cfgWr 0x0A v) s = cfgWrOutcome s v (v.toNat ≤ 7) { s.cfg with skipSf := v.setWidth 3 } ∧
    exec (.cfgWr 0x0B v) s = cfgWrOutcome s v (v.toNat ≤ 7) { s.cfg with hdrId := v.setWidth 3 } ∧
    exec (.cfgWr 0x0C v) s = cfgWrOutcome s v True { s.cfg with hdrReset := v } ∧
    exec (.cfgWr 0x0D v) s = cfgWrOutcome s v True { s.cfg with hdrUptimeLo := v } ∧
    exec (.cfgWr 0x0E v) s = cfgWrOutcome s v (v.toNat ≤ 511) { s.cfg with hdrUptimeHi := v.setWidth 9 } ∧
    exec (.cfgWr 0x0F v) s = cfgWrOutcome s v (v.toNat ≤ 15) { s.cfg with hdrType := v.setWidth 4 } ∧
    exec (.cfgWr 0x10 v) s = cfgWrOutcome s v (v.toNat ≤ 32) { s.cfg with syncBits := v.setWidth 6 } ∧
    exec (.cfgWr 0x11 v) s = cfgWrOutcome s v True { s.cfg with syncWordLo := v } ∧
    exec (.cfgWr 0x12 v) s = cfgWrOutcome s v True { s.cfg with syncWordHi := v } ∧
    exec (.cfgWr 0x13 v) s = cfgWrOutcome s v (1 ≤ v.toNat) { s.cfg with spb := v } ∧
    exec (.cfgWr 0x14 v) s = cfgWrOutcome s v True { s.cfg with smaller := v } ∧
    ∀ n : Byte, n.toNat < 0x03 ∨ 0x14 < n.toNat → exec (.cfgWr n v) s = .next (s.afterError 2 0x02 v)

/-- What CFG_WR stored is what CFG_RD returns, and every other writable register reads as before (10 R27, 46 R107,
R108). -/
def Obligations.CfgRdReturnsWhatCfgWrStored : Prop :=
  ∀ (s t : State) (n : Byte) (v : Half), s.fault = false → exec (.cfgWr n v) s = .next t → t.fault = false →
    exec (.cfgRd n) t = .next (t.completed v) ∧
    ∀ (m : Byte) (old : Half), m ≠ n → 0x03 ≤ m.toNat → m.toNat ≤ 0x14 →
      exec (.cfgRd m) s = .next (s.completed old) → exec (.cfgRd m) t = .next (t.completed old)

/-! ### GF engine -/

/-- GF_LOG returns LOG[v] of a byte and changes no state; any other value is E_INVALID_ARG (40 R58; default table, log
entry 3). -/
def Obligations.GfLogReturnsTheExponent : Prop :=
  (∀ v, encode (.gfLog v) = 0x10#8 ++ 0x00#8 ++ v) ∧
  (∀ (s : State) (v : Half), s.fault = false →
    (v.toNat ≤ 255 →
      exec (.gfLog v) s = .next (s.completed ((defaultLog (BitVec.ofNat 8 v.toNat)).setWidth 16))) ∧
    (255 < v.toNat → exec (.gfLog v) s = .next (s.afterError 2 0x10 v))) ∧
  defaultLog 0 = 255 ∧ defaultLog 1 = 0 ∧ defaultLog 2 = 1 ∧ defaultLog 0x87 = 8

/-- GF_ALOG returns ALOG[v] of a byte and changes no state; any other value is E_INVALID_ARG (40 R59; default table,
log entry 3). -/
def Obligations.GfAlogReturnsTheElement : Prop :=
  (∀ v, encode (.gfAlog v) = 0x11#8 ++ 0x00#8 ++ v) ∧
  (∀ (s : State) (v : Half), s.fault = false →
    (v.toNat ≤ 255 →
      exec (.gfAlog v) s = .next (s.completed ((defaultAlog (BitVec.ofNat 8 v.toNat)).setWidth 16))) ∧
    (255 < v.toNat → exec (.gfAlog v) s = .next (s.afterError 2 0x11 v))) ∧
  defaultAlog 0 = 1 ∧ defaultAlog 8 = 0x87 ∧ defaultAlog 254 = 0xC3 ∧
  ∀ e, defaultAlog e = 0 ↔ e = 255

/-- GF_MODEXP returns v mod 255 for every 16-bit value and changes no state (40 R60). -/
def Obligations.GfModexpReturnsTheRemainder : Prop :=
  (∀ v, encode (.gfModexp v) = 0x12#8 ++ 0x00#8 ++ v) ∧
  ∀ (s : State) (v : Half), s.fault = false →
    exec (.gfModexp v) s = .next (s.completed (BitVec.ofNat 16 (v.toNat % 255)))

/-- The machine's tables and the modulator's functions, whatever the free values are, have the properties the spec
requires of the parameters (00 R7, R9; 40 R54, R55; 41 R62). The sizes and table contents are defaults, log entries 2
and 3. -/
def Obligations.MachineParametersAreValid : Prop := machineParams.Valid

/-- With the default tables, multiplication through the logarithms is the multiplication of GF(256) modulo 0x187, and
distributes over XOR (40 R57; default tables, log entry 3). -/
def Obligations.FieldMultiplicationIsGf256 : Prop :=
  ∀ a b c : Byte,
    fieldMul machineParams a b = polyMul a b 8 ∧
    fieldMul machineParams a b = fieldMul machineParams b a ∧
    fieldMul machineParams a (fieldMul machineParams b c) =
      fieldMul machineParams (fieldMul machineParams a b) c ∧
    fieldMul machineParams a (b ^^^ c) = fieldMul machineParams a b ^^^ fieldMul machineParams a c

/-! ### Reed-Solomon encoder -/

/-- RS_RESET zeroes its bank, activates it with count 0, clears FRAME_VALID and leaves everything else (41 R63, R65).
With N_MAX = 8 every bank number exists (log entry 2). -/
def Obligations.RsResetZeroesTheBank : Prop :=
  ∀ (s : State) (b : BitVec 3), s.fault = false →
    ∃ t, exec (.rsReset b) s = .next t ∧
      t = { s with banks := t.banks, frameValid := false, response := some (responseWord 0 0) } ∧
      (bankOf t.banks b.toNat).act = true ∧ (bankOf t.banks b.toNat).cnt = 0 ∧
      (∀ (i : Nat) (h : i < 32), (bankOf t.banks b.toNat).par[i] = 0) ∧
      ∀ n, n ≠ b.toNat → bankOf t.banks n = bankOf s.banks n

/-- RS_UPDATE of a byte on an active bank that is not full folds it in as 41 R64 says and leaves everything else but
FRAME_VALID (41 R64, R66).
The tables are the default ones (log entry 3). -/
def Obligations.RsUpdateFoldsOneByte : Prop :=
  ∀ (s : State) (b : BitVec 3) (v : Half), s.fault = false → v.toNat ≤ 255 →
    (bankOf s.banks b.toNat).act = true → (bankOf s.banks b.toNat).cnt ≠ 223 →
    ∃ t, exec (.rsUpdate b v) s = .next t ∧
      t = { s with banks := t.banks, frameValid := false, response := some (responseWord 0 0) } ∧
      (∀ n, n ≠ b.toNat → bankOf t.banks n = bankOf s.banks n) ∧
      (bankOf t.banks b.toNat).act = true ∧
      (bankOf t.banks b.toNat).cnt = (bankOf s.banks b.toNat).cnt + 1 ∧
      ∀ fb : Byte, fb = defaultLog (BitVec.ofNat 8 v.toNat ^^^ (bankOf s.banks b.toNat).par[0]) →
        (bankOf t.banks b.toNat).par[31] = defaultAlog fb ∧
        ∀ (k : Nat) (h : k < 31), (bankOf t.banks b.toNat).par[k] =
          if fb = 255 then (bankOf s.banks b.toNat).par[k + 1]
          else (bankOf s.banks b.toNat).par[k + 1] ^^^
            defaultAlog (BitVec.ofNat 8 ((fb.toNat + (defaultGen (k + 1)).toNat) % 255))

/-- Where RS_UPDATE and RS_RD trap: E_INVALID_ARG on a value that is no byte, E_SEQUENCE on a bank never zeroed, and
for RS_UPDATE on a bank that holds 223 bytes (41 R66, R67; 60 R115).
That every bank number exists, so that the test for a bank that does not never fires, is N_MAX = 8 (log entry 2). -/
def Obligations.RsCommandsRefuseTheWrongOrder : Prop :=
  ∀ (s : State) (b : BitVec 3) (v : Half) (i : BitVec 5), s.fault = false →
    (255 < v.toNat → exec (.rsUpdate b v) s = .next (s.afterError 2 0x21 v)) ∧
    (v.toNat ≤ 255 → (bankOf s.banks b.toNat).act = false →
      exec (.rsUpdate b v) s = .next (s.afterError 3 0x21 v)) ∧
    (v.toNat ≤ 255 → (bankOf s.banks b.toNat).act = true → (bankOf s.banks b.toNat).cnt = 223 →
      exec (.rsUpdate b v) s = .next (s.afterError 3 0x21 v)) ∧
    ((bankOf s.banks b.toNat).act = false →
      exec (.rsRd b i) s = .next (s.afterError 3 0x22 (i.setWidth 16)))

/-- RS_RD returns the parity byte of an active bank and changes nothing (41 R67).
Every bank number exists (N_MAX = 8, log entry 2). -/
def Obligations.RsRdReturnsTheParityByte : Prop :=
  ∀ (s : State) (b : BitVec 3) (i : BitVec 5), s.fault = false → (bankOf s.banks b.toNat).act = true →
    exec (.rsRd b i) s = .next (s.completed (((bankOf s.banks b.toNat).par[i.toNat]'i.isLt).setWidth 16))

/-- The model's direct form of the update computes what the printed loops compute, for any tables (41 R64). -/
def Obligations.RsFoldIsThePrintedLoops : Prop :=
  ∀ (P : Params) (par : Vector Byte 32) (b : Byte), rsFold P par b = rsUpdateLoops P par b

/-- Any number of zero bytes gives an all-zero parity, for any tables with the required properties (41 R70 (a)). -/
def Obligations.ZeroBytesGiveZeroParity : Prop :=
  ∀ (P : Params) (n : Nat), P.Valid → parityOf P (List.replicate n 0) = Vector.replicate 32 0

/-- The parity of the XOR of two sequences of equal length is the XOR of their parities (41 R70 (b); default tables,
log entry 3). -/
def Obligations.ParityIsAdditive : Prop :=
  ∀ (a b : List Byte) (k : Nat) (h : k < 32), a.length = b.length →
    (parityOf machineParams (xorBytes a b))[k] =
      (parityOf machineParams a)[k] ^^^ (parityOf machineParams b)[k]

/-- A message followed by its parity, read as a polynomial, vanishes at every root of the generator (41 R68, R69;
default tables, log entry 3). -/
def Obligations.CodewordVanishesAtTheGeneratorRoots : Prop :=
  ∀ (message : List Byte) (i : Nat), i < 32 →
    evalAt machineParams (generatorRoot machineParams i)
      (message ++ (parityOf machineParams message).toList) = 0

/-! ### Line encoder -/

/-- ENC of a byte returns the codeword of the table for RD and sets RD to the table's next disparity; a value that is
neither a byte nor the marker is E_INVALID_ARG and leaves RD (42 R72, R75, R77).
The table is the default one (log entry 3). -/
def Obligations.EncReturnsTheCodeword : Prop :=
  ∀ (s : State) (v : Half), s.fault = false →
    (v.toNat ≤ 255 → exec (.enc v) s = .next { s with
      rd := (listedEncTab s.rd (BitVec.ofNat 8 v.toNat)).2,
      response := some (responseWord 0 ((listedEncTab s.rd (BitVec.ofNat 8 v.toNat)).1.setWidth 16)) }) ∧
    (256 ≤ v.toNat → v.toNat ≤ 65534 → exec (.enc v) s = .next (s.afterError 2 0x30 v))

/-- ENC.EOF returns 0x0FA from negative and 0x305 from positive disparity and inverts RD; neither pattern is the
codeword of a byte (42 R76). -/
def Obligations.EncEofReturnsTheCommaAndInvertsRd : Prop :=
  encode .encEof = 0x3000FFFF ∧
  ∀ s : State, s.fault = false →
    (s.rd = .neg → exec .encEof s = .next { s with rd := .pos, response := some 0x000000FA#32 }) ∧
    (s.rd = .pos → exec .encEof s = .next { s with rd := .neg, response := some 0x00000305#32 }) ∧
    ∀ (rd : Disparity) (b : Byte), (listedEncTab rd b).1 ≠ 0x0FA ∧ (listedEncTab rd b).1 ≠ 0x305

/-- The three steps of 42 R74 give the 512 entries the spec prints.
The table is the default one (log entry 3). -/
def Obligations.ComputedCodeIsThePrintedCode : Prop :=
  ∀ (rd : Disparity) (b : Byte), defaultEncTab rd b = listedEncTab rd b

/-- Over any byte sequence the ones sent less the zeros sent is twice the change of RD, so that the imbalance is never
above 2 (42 R78, R79 (a); default table, log entry 3). -/
def Obligations.DisparityCountsTheImbalance : Prop :=
  ∀ (rd : Disparity) (bs : List Byte),
    ((streamBits (encodeBytes machineParams rd bs).1).count true : Int) -
        ((streamBits (encodeBytes machineParams rd bs).1).count false : Int) =
      2 * (disparityLevel (encodeBytes machineParams rd bs).2 - disparityLevel rd)

/-- No data stream holds six equal bits in a row (42 R79 (d); default table, log entry 3). -/
def Obligations.DataStreamsHaveNoSixEqualBits : Prop :=
  ∀ (rd : Disparity) (bs : List Byte) (x : Bool),
    ¬ List.replicate 6 x <:+: streamBits (encodeBytes machineParams rd bs).1

/-- The comma runs 0011111 and 1100000 occur in no data stream, while each control pattern holds one (42 R79 (c);
default table, log entry 3). -/
def Obligations.CommaOccursInNoDataStream : Prop :=
  (∀ (rd : Disparity) (bs : List Byte),
    ¬ [false, false, true, true, true, true, true] <:+: streamBits (encodeBytes machineParams rd bs).1 ∧
    ¬ [true, true, false, false, false, false, false] <:+: streamBits (encodeBytes machineParams rd bs).1) ∧
  [false, false, true, true, true, true, true] <:+: streamBits [kcomma .neg] ∧
  [true, true, false, false, false, false, false] <:+: streamBits [kcomma .pos]

/-! ### Frame assembler and interleaver -/

/-- HDR_WR writes one byte of HDR and nothing else; an index of 6 or more is E_INVALID_ARG (43 R80). -/
def Obligations.HdrWrWritesOneByte : Prop :=
  (∀ i b, encode (.hdrWr i b) = 0x40#8 ++ 0#4 ++ i ++ b) ∧
  ∀ (s : State) (i : BitVec 12) (b : Byte), s.fault = false →
    (i.toNat < 6 → ∃ t, exec (.hdrWr i b) s = .next t ∧
      t = { s with hdr := t.hdr, response := some (responseWord 0 0) } ∧
      Buf.read t.hdr i.toNat = b ∧ ∀ j, j ≠ i.toNat → Buf.read t.hdr j = Buf.read s.hdr j) ∧
    (6 ≤ i.toNat →
      exec (.hdrWr i b) s = .next (s.afterError 2 0x40 ((encode (.hdrWr i b)).extractLsb' 0 16)))

/-- PAY_WR writes one byte of PAY and nothing else; an index of PAY_MAX = 2048 or more is E_INVALID_ARG (43
R82; default size, log entry 2). -/
def Obligations.PayWrWritesOneByte : Prop :=
  (∀ i b, encode (.payWr i b) = 0x42#8 ++ 0#4 ++ i ++ b) ∧
  ∀ (s : State) (i : BitVec 12) (b : Byte), s.fault = false →
    (i.toNat < 2048 → ∃ t, exec (.payWr i b) s = .next t ∧
      t = { s with pay := t.pay, response := some (responseWord 0 0) } ∧
      Buf.read t.pay i.toNat = b ∧ ∀ j, j ≠ i.toNat → Buf.read t.pay j = Buf.read s.pay j) ∧
    (2048 ≤ i.toNat →
      exec (.payWr i b) s = .next (s.afterError 2 0x42 ((encode (.payWr i b)).extractLsb' 0 16)))

/-- HDR_RD and PAY_RD return the byte and change nothing; an index past the buffer is E_INVALID_ARG (43 R81, R83;
PAY_MAX = 2048, log entry 2). -/
def Obligations.FrameBufferReadsReturnTheByte : Prop :=
  ∀ (s : State) (i : BitVec 24), s.fault = false →
    (i.toNat < 6 → exec (.hdrRd i) s = .next (s.completed ((Buf.read s.hdr i.toNat).setWidth 16))) ∧
    (6 ≤ i.toNat → exec (.hdrRd i) s = .next (s.afterError 2 0x41 (i.extractLsb' 0 16))) ∧
    (i.toNat < 2048 → exec (.payRd i) s = .next (s.completed ((Buf.read s.pay i.toNat).setWidth 16))) ∧
    (2048 ≤ i.toNat → exec (.payRd i) s = .next (s.afterError 2 0x43 (i.extractLsb' 0 16)))

/-- WB_RD and SYM_RD return the element below the count of the last production and change nothing; with the valid flag
at 0 they are E_SEQUENCE, at or above the count E_INVALID_ARG (43 R93, 44 R96, 60 R115). -/
def Obligations.ProducedBufferReadsReturnTheElement : Prop :=
  (∀ i, encode (.wbRd i) = 0x49#8 ++ i ∧ encode (.symRd i) = 0x51#8 ++ i) ∧
  ∀ (s : State) (i : BitVec 24), s.fault = false →
    (s.frameValid = true → i.toNat < s.wCount →
      exec (.wbRd i) s = .next (s.completed ((Buf.read s.wb i.toNat).setWidth 16))) ∧
    (s.frameValid = true → s.wCount ≤ i.toNat →
      exec (.wbRd i) s = .next (s.afterError 2 0x49 (i.extractLsb' 0 16))) ∧
    (s.frameValid = false → exec (.wbRd i) s = .next (s.afterError 3 0x49 (i.extractLsb' 0 16))) ∧
    (s.symValid = true → i.toNat < s.symCount →
      exec (.symRd i) s = .next (s.completed ((Buf.read s.sym i.toNat).setWidth 16))) ∧
    (s.symValid = true → s.symCount ≤ i.toNat →
      exec (.symRd i) s = .next (s.afterError 2 0x51 (i.extractLsb' 0 16))) ∧
    (s.symValid = false → exec (.symRd i) s = .next (s.afterError 3 0x51 (i.extractLsb' 0 16)))

/-- BUF_CLR makes every byte of HDR and PAY 0 and changes nothing else (43 R84). -/
def Obligations.BufClrZeroesBothBuffers : Prop :=
  encode .bufClr = 0x47000000 ∧
  ∀ s : State, s.fault = false → ∃ t, exec .bufClr s = .next t ∧
    t = { s with hdr := t.hdr, pay := t.pay, response := some (responseWord 0 0) } ∧
    (∀ i, Buf.read t.hdr i = 0) ∧ ∀ i, Buf.read t.pay i = 0

/-- HDR_PACK writes the six header bytes so that the inverse bit operations recover the four fields exactly, and
changes nothing else (43 R85). -/
def Obligations.HdrPackKeepsEveryField : Prop :=
  encode .hdrPack = 0x44000000 ∧ ∀ s : State, s.fault = false → ∃ t, exec .hdrPack s = .next t ∧
    t = { s with hdr := t.hdr, response := some (responseWord 0 0) } ∧
    (∀ i, 6 ≤ i → Buf.read t.hdr i = Buf.read s.hdr i) ∧
    (Buf.read t.hdr 0).extractLsb' 0 3 = s.cfg.hdrId ∧
    (Buf.read t.hdr 2).extractLsb' 0 3 ++ Buf.read t.hdr 1 ++ (Buf.read t.hdr 0).extractLsb' 3 5 =
      s.cfg.hdrReset ∧
    (Buf.read t.hdr 5).extractLsb' 0 4 ++ Buf.read t.hdr 4 ++ Buf.read t.hdr 3 ++
      (Buf.read t.hdr 2).extractLsb' 3 5 = s.cfg.hdrUptimeHi ++ s.cfg.hdrUptimeLo ∧
    (Buf.read t.hdr 5).extractLsb' 4 4 = s.cfg.hdrType

/-- PAY_PACK_A writes PAY[i] and the low nibble of PAY[i+1], keeps its high nibble, and changes nothing else; without
room for both bytes it is E_INVALID_ARG (43 R86; PAY_MAX = 2048, log entry 2). -/
def Obligations.PayPackAWritesLowByteThenNibble : Prop :=
  (∀ i v, encode (.payPackA i v) = 0x45#8 ++ i ++ v) ∧
  ∀ (s : State) (i v : BitVec 12), s.fault = false →
    (i.toNat + 1 < 2048 → ∃ t, exec (.payPackA i v) s = .next t ∧
      t = { s with pay := t.pay, response := some (responseWord 0 0) } ∧
      Buf.read t.pay i.toNat = v.extractLsb' 0 8 ∧
      (Buf.read t.pay (i.toNat + 1)).extractLsb' 0 4 = v.extractLsb' 8 4 ∧
      (Buf.read t.pay (i.toNat + 1)).extractLsb' 4 4 = (Buf.read s.pay (i.toNat + 1)).extractLsb' 4 4 ∧
      ∀ j, j ≠ i.toNat → j ≠ i.toNat + 1 → Buf.read t.pay j = Buf.read s.pay j) ∧
    (2048 ≤ i.toNat + 1 →
      exec (.payPackA i v) s = .next (s.afterError 2 0x45 ((encode (.payPackA i v)).extractLsb' 0 16)))

/-- PAY_PACK_B writes the high nibble of PAY[i] and PAY[i+1], keeps the low nibble of PAY[i], and changes nothing else;
without room for both bytes it is E_INVALID_ARG (43 R87; PAY_MAX = 2048, log entry 2). -/
def Obligations.PayPackBWritesNibbleThenHighByte : Prop :=
  (∀ i v, encode (.payPackB i v) = 0x46#8 ++ i ++ v) ∧
  ∀ (s : State) (i v : BitVec 12), s.fault = false →
    (i.toNat + 1 < 2048 → ∃ t, exec (.payPackB i v) s = .next t ∧
      t = { s with pay := t.pay, response := some (responseWord 0 0) } ∧
      (Buf.read t.pay i.toNat).extractLsb' 4 4 = v.extractLsb' 0 4 ∧
      (Buf.read t.pay i.toNat).extractLsb' 0 4 = (Buf.read s.pay i.toNat).extractLsb' 0 4 ∧
      Buf.read t.pay (i.toNat + 1) = v.extractLsb' 4 8 ∧
      ∀ j, j ≠ i.toNat → j ≠ i.toNat + 1 → Buf.read t.pay j = Buf.read s.pay j) ∧
    (2048 ≤ i.toNat + 1 →
      exec (.payPackB i v) s = .next (s.afterError 2 0x46 ((encode (.payPackB i v)).extractLsb' 0 16)))

/-- Two readings packed by PAY_PACK_A i and PAY_PACK_B i+1, in either order, occupy three bytes and are both recovered
(43 R88; PAY_MAX = 2048, log entry 2). -/
def Obligations.PackedPairIsRecoveredInEitherOrder : Prop :=
  ∀ (s t u : State) (i p q : BitVec 12), s.fault = false → i.toNat + 2 < 2048 →
    (exec (.payPackA i p) s = .next t ∧ exec (.payPackB (i + 1) q) t = .next u) ∨
      (exec (.payPackB (i + 1) q) s = .next t ∧ exec (.payPackA i p) t = .next u) →
    (Buf.read u.pay (i.toNat + 1)).extractLsb' 0 4 ++ Buf.read u.pay i.toNat = p ∧
    Buf.read u.pay (i.toNat + 2) ++ (Buf.read u.pay (i.toNat + 1)).extractLsb' 4 4 = q ∧
    ∀ j, j < i.toNat ∨ i.toNat + 2 < j → Buf.read u.pay j = Buf.read s.pay j

/-- FRAME_ENC with consistent registers responds the number of slots and writes the banks it uses, WB, W_COUNT, FRAME_N
and FRAME_VALID, and nothing else (43 R89).
There are 8 banks (N_MAX, log entry 2). That the elements of WB at and above the count keep their values is the model's
choice (log entry 6). -/
def Obligations.FrameEncWritesTheFrame : Prop :=
  ∀ (s : State) (n c h p sk w : Nat), s.fault = false →
    n = s.cfg.nSf.toNat → c = s.cfg.cols.toNat → h = s.cfg.headerLen.toNat → p = s.cfg.payloadLen.toNat →
    sk = s.cfg.skipEn.toNat → w = n * c - sk → n ≤ 8 →
    (sk = 1 → s.cfg.skipCol.toNat < c ∧ s.cfg.skipSf.toNat < n) → h + p ≤ w → (h < w → p ≠ 0) →
    ∃ t, exec .frameEnc s = .next t ∧
      t = { s with
        banks := t.banks, wb := t.wb, wCount := w, frameN := n, frameValid := true,
        response := some (responseWord 0 (BitVec.ofNat 16 w)) } ∧
      (∀ m, n ≤ m → bankOf t.banks m = bankOf s.banks m) ∧
      (∀ k, k < w → Buf.read t.wb k =
        if k < h then Buf.read s.hdr k else Buf.read s.pay ((k - h) % p)) ∧
      ∀ k, w ≤ k → Buf.read t.wb k = Buf.read s.wb k

/-- FRAME_ENC with inconsistent registers is E_CONFIG and changes nothing but the record (43 R89). -/
def Obligations.FrameEncRefusesInconsistentRegisters : Prop :=
  ∀ (s : State) (n c h p sk w : Nat), s.fault = false →
    n = s.cfg.nSf.toNat → c = s.cfg.cols.toNat → h = s.cfg.headerLen.toNat → p = s.cfg.payloadLen.toNat →
    sk = s.cfg.skipEn.toNat → w = n * c - sk →
    (sk = 1 ∧ (c ≤ s.cfg.skipCol.toNat ∨ n ≤ s.cfg.skipSf.toNat)) ∨ w < h + p ∨ (h < w ∧ p = 0) →
    exec .frameEnc s = .next (s.afterError 4 0x48 0)

/-- The closed form of the slot map: written byte k goes to sub-frame k' mod N, each sub-frame folds its bytes in order
into a zeroed bank, and folds C of them or C - 1 when it holds the skipped slot (43 R90).
The sizes and tables are the default ones (log entries 2 and 3). -/
def Obligations.SubFramesFoldTheirSlots : Prop :=
  ∀ (s t : State) (n c z : Nat), s.fault = false → exec .frameEnc s = .next t → t.fault = false →
    n = s.cfg.nSf.toNat → c = s.cfg.cols.toNat → n ≤ 8 →
    z = (if s.cfg.skipEn = 1 then s.cfg.skipCol.toNat * n + s.cfg.skipSf.toNat else n * c) →
    ∀ sub, sub < n →
      bankOf t.banks sub =
        { act := true, cnt := (foldedBy (Buf.read t.wb) t.wCount n z sub).length,
          par := parityOf machineParams (foldedBy (Buf.read t.wb) t.wCount n z sub) } ∧
      (bankOf t.banks sub).cnt = if s.cfg.skipEn = 1 ∧ sub = s.cfg.skipSf.toNat then c - 1 else c

/-! ### Serializer -/

/-- SYM_BUILD feeds the written bytes and then the parity bytes, by parity index and within it by sub-frame, through
the one line encoder from the RD left before, and writes SYM, SYM_COUNT, SYM_VALID and RD only; without a valid frame
it is E_SEQUENCE (44 R94, R95; default code table, log entry 3).
That the elements of SYM at and above the count keep their values is the model's choice (log entry 6). -/
def Obligations.SymBuildSerializesTheFrame : Prop :=
  encode .symBuild = 0x50000000 ∧ ∀ (s : State) (fed : Nat → Byte) (rdAt : Nat → Disparity) (n : Nat), s.fault = false →
    (∀ k, fed k = if k < s.wCount then Buf.read s.wb k
      else parityByte s.banks ((k - s.wCount) % s.frameN) ((k - s.wCount) / s.frameN)) →
    (∀ k, rdAt k = (List.range k).foldl (fun rd j => (defaultEncTab rd (fed j)).2) s.rd) →
    n = s.wCount + 32 * s.frameN →
    (s.frameValid = true → ∃ t, exec .symBuild s = .next t ∧
      t = { s with
        rd := rdAt n, sym := t.sym, symCount := n, symValid := true,
        response := some (responseWord 0 (BitVec.ofNat 16 n)) } ∧
      (∀ k, k < n → Buf.read t.sym k = (defaultEncTab (rdAt k) (fed k)).1) ∧
      ∀ k, n ≤ k → Buf.read t.sym k = Buf.read s.sym k) ∧
    (s.frameValid = false → exec .symBuild s = .next (s.afterError 3 0x50 0))

/-! ### Modulator -/

/-- MOD_RUN produces (SYNC_BITS + 10 * SYM_COUNT) * SPB samples, responds the low 16 bits of that count and writes SMP,
SMP_COUNT, SMP_VALID, REV_COUNT and PHASE only; it is E_SEQUENCE without a symbol stream and E_CONFIG when the samples
do not fit (45 R99, R100 (a)).
SMP_MAX is 2^23 (log entry 2). That the elements of SMP at and above the count keep their values is the model's choice
(log entry 6). -/
def Obligations.ModRunProducesTheCycle : Prop :=
  ∀ (s : State) (total : Nat), s.fault = false → total = cycleLength s * s.cfg.spb.toNat →
    (s.symValid = true → total ≤ 2 ^ 23 → ∃ t, exec .modRun s = .next t ∧
      t = { s with
        smp := t.smp, smpCount := total, smpValid := true, phase := t.phase, revCount := t.revCount,
        response := some (responseWord 0 (BitVec.ofNat 16 total)) } ∧
      ∀ c, total ≤ c → Buf.read t.smp c = Buf.read s.smp c) ∧
    (s.symValid = false → exec .modRun s = .next (s.afterError 3 0x60 0)) ∧
    (s.symValid = true → 2 ^ 23 < total → exec .modRun s = .next (s.afterError 4 0x60 0))

/-- In FSK mode sample c is TONE of the bit that owns it, PHASE is untouched and no reversal is counted; TONE is a free
function (45 R99, R100 (e); log entry 4).
A cycle of 2^23 samples fits (SMP_MAX, log entry 2). -/
def Obligations.FskSamplesAreTones : Prop :=
  ∀ s t : State, s.fault = false → s.symValid = true → s.cfg.mode = 0 →
    cycleLength s * s.cfg.spb.toNat ≤ 2 ^ 23 → exec .modRun s = .next t →
    t.phase = s.phase ∧ t.revCount = 0 ∧
    ∀ c, c < cycleLength s * s.cfg.spb.toNat →
      (Buf.read t.smp c).toInt = tone (cycleBit s (c / s.cfg.spb.toNat)) c

/-- In BPSK mode there is exactly one phase reversal for each 0 bit, and PHASE is negated when their number is odd (45
R100 (b), (c)).
A cycle of 2^23 samples fits (SMP_MAX, log entry 2). -/
def Obligations.BpskReversesOncePerZeroBit : Prop :=
  ∀ s t : State, s.fault = false → s.symValid = true → s.cfg.mode = 1 →
    cycleLength s * s.cfg.spb.toNat ≤ 2 ^ 23 → exec .modRun s = .next t →
    t.revCount = zerosBefore s (cycleLength s) ∧ t.phase = phaseAfter s.phase (zerosBefore s (cycleLength s))

/-- In BPSK mode sample c starts as PHASE after its own bit times the carrier. Every later reversal within SMALLER
samples of it replaces it by RAMP of the value it then has, at the sample's distance from the reversal and the length
SMALLER, one reversal after another in order: one such reversal applies RAMP once, none leaves the sample as it was, and
the sign is kept or the sample 0, with no greater magnitude (45 R99 (d), (e), R100 (d)). CARRIER and RAMP are free
functions (log entry 4), and a cycle of 2^23 samples fits (SMP_MAX, log entry 2). -/
def Obligations.BpskSamplesFollowThePhase : Prop :=
  ∀ (s t : State) (hard : Nat → Int), s.fault = false → s.symValid = true → s.cfg.mode = 1 →
    cycleLength s * s.cfg.spb.toNat ≤ 2 ^ 23 → exec .modRun s = .next t →
    (∀ c, hard c = (phaseAfter s.phase (zerosBefore s (c / s.cfg.spb.toNat + 1))).sign * carrier c) →
    ∀ c, c < cycleLength s * s.cfg.spb.toNat →
      (Buf.read t.smp c).toInt = (attenuatingBits s c).foldl (rampBefore s c) (hard c) ∧
      (∀ j, j < cycleLength s → cycleBit s j = false → c < j * s.cfg.spb.toNat →
        j * s.cfg.spb.toNat ≤ c + s.cfg.smaller.toNat →
        (∀ k, k < cycleLength s → cycleBit s k = false → c < k * s.cfg.spb.toNat →
          k * s.cfg.spb.toNat ≤ c + s.cfg.smaller.toNat → k = j) →
        (Buf.read t.smp c).toInt = ramp (hard c) (j * s.cfg.spb.toNat - c) s.cfg.smaller.toNat) ∧
      ((∀ j, j < cycleLength s → cycleBit s j = false → c < j * s.cfg.spb.toNat →
          c + s.cfg.smaller.toNat < j * s.cfg.spb.toNat) →
        (Buf.read t.smp c).toInt = hard c) ∧
      (Buf.read t.smp c).toInt.natAbs ≤ (hard c).natAbs ∧
      ((Buf.read t.smp c).toInt = 0 ∨ (Buf.read t.smp c).toInt.sign = (hard c).sign)

/-- SMP_RD returns the sample and SMP_RDB the byte of its little-endian view; with SMP_VALID at 0 they are E_SEQUENCE,
at or above the count E_INVALID_ARG (20 R34, 45 R104, R105). -/
def Obligations.SampleReadsAreLittleEndian : Prop :=
  (∀ i, encode (.smpRd i) = 0x61#8 ++ i ∧ encode (.smpRdb i) = 0x62#8 ++ i) ∧
  ∀ (s : State) (i : BitVec 24), s.fault = false →
    (s.smpValid = true → i.toNat < s.smpCount →
      exec (.smpRd i) s = .next (s.completed (Buf.read s.smp i.toNat))) ∧
    (s.smpValid = true → s.smpCount ≤ i.toNat →
      exec (.smpRd i) s = .next (s.afterError 2 0x61 (i.extractLsb' 0 16))) ∧
    (s.smpValid = false → exec (.smpRd i) s = .next (s.afterError 3 0x61 (i.extractLsb' 0 16))) ∧
    (s.smpValid = true → ∀ k, k < s.smpCount → i.toNat = 2 * k →
      exec (.smpRdb i) s = .next (s.completed ((Buf.read s.smp k).extractLsb' 0 8 |>.setWidth 16))) ∧
    (s.smpValid = true → ∀ k, k < s.smpCount → i.toNat = 2 * k + 1 →
      exec (.smpRdb i) s = .next (s.completed ((Buf.read s.smp k).extractLsb' 8 8 |>.setWidth 16))) ∧
    (s.smpValid = true → 2 * s.smpCount ≤ i.toNat →
      exec (.smpRdb i) s = .next (s.afterError 2 0x62 (i.extractLsb' 0 16))) ∧
    (s.smpValid = false → exec (.smpRdb i) s = .next (s.afterError 3 0x62 (i.extractLsb' 0 16)))

/-! ### Errors and the faulted state -/

/-- Every command answers one response word: status in bits 31:24, zero in bits 23:16, and the result 0 unless the
status is 0 (30 R48, 60 R111). -/
def Obligations.EveryCommandAnswersOneResponseWord : Prop :=
  ∀ (i : Instr) (s : State), ∃ (t : State) (w : Word), exec i s = .next t ∧ t.response = some w ∧
    w.extractLsb' 16 8 = 0 ∧ (w.extractLsb' 24 8).toNat ≤ 5 ∧
    (w.extractLsb' 24 8 ≠ 0 → w.extractLsb' 0 16 = 0)

/-- A command word that is answered an error, an illegal word too, changes nothing but the response and, when it is the
first error, the fault record, which holds the code, the opcode byte and bits 15:0 of the word (60 R116).
That the word is taken off the port is the model's (log entry 1). -/
def Obligations.ErrorChangesNothingButTheRecord : Prop :=
  ∀ (s t : State) (c w : Word) (rest : List HostInput), s.inbox = .command c :: rest → step s = .next t →
    t.response = some w → w.extractLsb' 24 8 ≠ 0 →
    w = (w.extractLsb' 24 8) ++ 0#24 ∧
    t = if s.fault then { s with inbox := rest, response := some w }
      else { s with
        inbox := rest, fault := true, faultCode := w.extractLsb' 24 8, faultOp := c.extractLsb' 24 8,
        faultInfo := c.extractLsb' 0 16, response := some w }

/-- While FAULT = 1 every command but NOP and CFG_RD responds E_FAULTED and does nothing, NOP and CFG_RD are served as
ever, and only the hardware reset leaves the state (60 R117).
The RS_STAT registers are those of 8 banks (log entry 2). -/
def Obligations.FaultedStateServesNopAndCfgRdOnly : Prop :=
  (∀ (i : Instr) (s : State), s.fault = true → i ≠ .nop → (∀ n, i ≠ .cfgRd n) →
    exec i s = .next { s with response := some (responseWord 5 0) }) ∧
  (∀ s : State, s.fault = true → exec .nop s = .next (s.completed 0)) ∧
  (∀ (s : State) (n : Byte), s.fault = true → n.toNat ≤ 0x1A ∨ (0x20 ≤ n.toNat ∧ n.toNat ≤ 0x27) →
    ∃ v, exec (.cfgRd n) s = .next (s.completed v)) ∧
  ∀ s t : State, s.fault = true → (∀ rest, s.inbox ≠ .hardReset :: rest) → step s = .next t → t.fault = true

/-- A faulted machine is frozen: a step that is not the hardware reset changes the port only, so the record keeps the
first error (10 R29, 60 R118).
The port is the model's (log entry 1). -/
def Obligations.FaultedMachineIsFrozen : Prop :=
  ∀ s t : State, s.fault = true → (∀ rest, s.inbox ≠ .hardReset :: rest) → step s = .next t →
    t = { s with inbox := t.inbox, response := t.response }

/-- No step stops: the machine answers in every state (60 R115, R116). With nothing presented the hardware waits and
holds its state (70 R126, 60 R125; the idle step is the model's, log entry 1). -/
def Obligations.StepNeverStops : Prop :=
  (∀ s : State, ∃ t, step s = .next t) ∧ ∀ s : State, s.inbox = [] → step s = .next s

/-! ### Who writes what -/

/-- The read commands leave all state unchanged when they succeed and may be repeated with the same answer (20 R38). -/
def Obligations.ReadsHaveNoSideEffect : Prop :=
  ∀ (i : Instr) (s t : State),
    ((∃ n, i = .cfgRd n) ∨ (∃ b k, i = .rsRd b k) ∨ (∃ k, i = .hdrRd k) ∨ (∃ k, i = .payRd k) ∨
      (∃ k, i = .wbRd k) ∨ (∃ k, i = .symRd k) ∨ (∃ k, i = .smpRd k) ∨ (∃ k, i = .smpRdb k)) →
    exec i s = .next t → (∀ w, t.response = some w → w.extractLsb' 24 8 = 0) →
    t = { s with response := t.response } ∧ exec i t = .next t

/-- Each piece of state is written by the commands the spec names for it and by no other: the fault record by a
command that is answered an error while FAULT = 0 and by no other command (10 R15, R20, R23 to R26, R29). That no command
takes anything off the port is the model's (log entry 1). -/
def Obligations.StateIsWrittenOnlyByItsCommands : Prop :=
  ∀ (i : Instr) (s t : State), exec i s = .next t →
    t.inbox = s.inbox ∧
    ((∀ b, i ≠ .rsReset b) → (∀ b v, i ≠ .rsUpdate b v) → i ≠ .frameEnc →
      t.banks = s.banks ∧ t.frameValid = s.frameValid) ∧
    (i ≠ .frameEnc → t.wb = s.wb ∧ t.wCount = s.wCount ∧ t.frameN = s.frameN) ∧
    ((∀ v, i ≠ .enc v) → i ≠ .encEof → i ≠ .symBuild → t.rd = s.rd) ∧
    ((∀ k b, i ≠ .hdrWr k b) → i ≠ .hdrPack → i ≠ .bufClr → t.hdr = s.hdr) ∧
    ((∀ k b, i ≠ .payWr k b) → (∀ k v, i ≠ .payPackA k v) → (∀ k v, i ≠ .payPackB k v) → i ≠ .bufClr →
      t.pay = s.pay) ∧
    (i ≠ .symBuild → t.sym = s.sym ∧ t.symCount = s.symCount ∧ t.symValid = s.symValid) ∧
    (i ≠ .modRun → t.smp = s.smp ∧ t.smpCount = s.smpCount ∧ t.smpValid = s.smpValid ∧ t.phase = s.phase ∧
      t.revCount = s.revCount) ∧
    ((∀ n v, i ≠ .cfgWr n v) → t.cfg = s.cfg) ∧
    ((∃ w, t.response = some w ∧ w.extractLsb' 24 8 = 0) ∨ s.fault = true →
      t.fault = s.fault ∧ t.faultCode = s.faultCode ∧ t.faultOp = s.faultOp ∧ t.faultInfo = s.faultInfo)

/-! ### Invariants -/

/-- The invariants hold at reset.
That WB, SYM and SMP hold nothing then is the model's choice (log entry 5), and the ranges are those of the default
sizes (log entry 2). -/
def Obligations.ResetMeetsTheInvariants : Prop := State.reset.Inv ∧ State.reset.FrameConsistent

/-- Every step keeps the invariant: canonical memories within their ranges, counters within theirs, legal registers, and
what the flags and the fault record stand for (10 R15, R18, R23, R27, R29; 20 R32).
The ranges are those of the default sizes (log entry 2). -/
def Obligations.EveryStepKeepsTheInvariant : Prop :=
  ∀ s t : State, s.Inv → step s = .next t → t.Inv

/-- Every step keeps the meaning of FRAME_VALID: WB and the banks together hold one complete encoded frame (10 R23).
The parity is that of the default tables (log entry 3). -/
def Obligations.EveryStepKeepsTheFrameConsistent : Prop :=
  ∀ s t : State, s.Inv → s.FrameConsistent → step s = .next t → t.FrameConsistent
end

