-- ==== Sys2Proof/Laws/Buf.lean ====
section
/-! SUPPORT. The laws of the indexed spaces: what a read gives after a write, a fill or a clear, and that every
operation keeps the canonical form and the index bound. -/

namespace Sys2Proof.Machine

variable {w : Nat}

@[simp] theorem Buf.read_nil (i : Nat) : Buf.read ([] : Buf w) i = 0 := rfl

theorem Buf.read_cons (k : Nat) (x : BitVec w) (b : Buf w) (i : Nat) :
    Buf.read ((k, x) :: b) i = if k = i then x else Buf.read b i := rfl

/-- An index no entry carries reads 0. -/
theorem Buf.read_of_absent (b : Buf w) (i : Nat) (h : ∀ e ∈ b, e.1 ≠ i) : Buf.read b i = 0 := by
  induction b with
  | nil => rfl
  | cons e b ih =>
    obtain ⟨k, x⟩ := e
    rw [Buf.read_cons, if_neg (h (k, x) (by simp))]
    exact ih fun e he => h e (by simp [he])

/-- Filtering by index keeps what the kept indexes read. -/
theorem Buf.read_filter (b : Buf w) (p : Nat → Bool) (i : Nat) :
    Buf.read (b.filter fun e => p e.1) i = if p i then Buf.read b i else 0 := by
  induction b with
  | nil => simp
  | cons e b ih =>
    obtain ⟨k, x⟩ := e
    by_cases hk : p k
    · rw [List.filter_cons_of_pos (by simpa using hk), Buf.read_cons, Buf.read_cons, ih]
      by_cases hki : k = i
      · subst hki; simp [hk]
      · simp [hki]
    · rw [List.filter_cons_of_neg (by simpa using hk), ih, Buf.read_cons]
      by_cases hki : k = i
      · subst hki; simp [hk]
      · simp [hki]

theorem Buf.read_insert (b : Buf w) (i : Nat) (v : BitVec w) (h : ∀ e ∈ b, e.1 ≠ i) (j : Nat) :
    Buf.read (Buf.insert i v b) j = if i = j then v else Buf.read b j := by
  induction b with
  | nil => rfl
  | cons e b ih =>
    obtain ⟨k, x⟩ := e
    have hk : k ≠ i := h (k, x) (by simp)
    have hb : ∀ e ∈ b, e.1 ≠ i := fun e he => h e (by simp [he])
    unfold Buf.insert
    split
    · rfl
    · rw [Buf.read_cons, ih hb, Buf.read_cons]
      by_cases hkj : k = j
      · subst hkj; simp [Ne.symm hk]
      · simp [hkj]

/-- Read after write: the element written, and every other element as before. -/
theorem Buf.read_write (b : Buf w) (i : Nat) (v : BitVec w) (j : Nat) :
    Buf.read (Buf.write b i v) j = if i = j then v else Buf.read b j := by
  have habs : ∀ e ∈ b.filter (fun e => e.1 != i), e.1 ≠ i := by
    intro e he; simpa using (List.mem_filter.mp he).2
  have hf : Buf.read (b.filter fun e => e.1 != i) j = if i = j then 0 else Buf.read b j := by
    rw [Buf.read_filter b (fun n => n != i) j]
    by_cases hij : i = j
    · simp [hij]
    · simp [hij, Ne.symm hij]
  unfold Buf.write
  dsimp only
  split
  · next hv => rw [hf, hv]
  · rw [Buf.read_insert _ _ _ habs, hf]
    by_cases hij : i = j <;> simp [hij]

@[simp] theorem Buf.read_write_same (b : Buf w) (i : Nat) (v : BitVec w) :
    Buf.read (Buf.write b i v) i = v := by simp [Buf.read_write]

theorem Buf.read_write_other (b : Buf w) (i : Nat) (v : BitVec w) (j : Nat) (h : j ≠ i) :
    Buf.read (Buf.write b i v) j = Buf.read b j := by simp [Buf.read_write, Ne.symm h]

/-- The entries of `ofListFrom k xs` lie in `k .. k + length - 1` and are not zero. -/
theorem Buf.mem_ofListFrom (xs : List (BitVec w)) (k : Nat) (e : Nat × BitVec w)
    (h : e ∈ Buf.ofListFrom k xs) : k ≤ e.1 ∧ e.1 < k + xs.length ∧ e.2 ≠ 0 := by
  induction xs generalizing k with
  | nil => simp [Buf.ofListFrom] at h
  | cons x xs ih =>
    unfold Buf.ofListFrom at h
    split at h
    · have := ih _ h
      exact ⟨by omega, by simp only [List.length_cons]; omega, this.2.2⟩
    · next hx =>
      rcases List.mem_cons.mp h with rfl | h
      · exact ⟨by simp, by simp, hx⟩
      · have := ih _ h
        exact ⟨by omega, by simp only [List.length_cons]; omega, this.2.2⟩

theorem Buf.read_ofListFrom_append (xs : List (BitVec w)) (k : Nat) (b : Buf w)
    (hb : ∀ e ∈ b, k + xs.length ≤ e.1) (i : Nat) :
    Buf.read (Buf.ofListFrom k xs ++ b) i =
      if h : k ≤ i ∧ i < k + xs.length then xs[i - k]'(by omega) else Buf.read b i := by
  induction xs generalizing k with
  | nil =>
    rw [dif_neg (by simp)]; rfl
  | cons x xs ih =>
    have hb' : ∀ e ∈ b, k + 1 + xs.length ≤ e.1 := by
      intro e he; have := hb e he; simp only [List.length_cons] at this; omega
    have ih := ih (k + 1) hb'
    have hrest : k ≠ i → Buf.read (Buf.ofListFrom (k + 1) xs ++ b) i =
        if h : k ≤ i ∧ i < k + (x :: xs).length then (x :: xs)[i - k]'(by omega) else Buf.read b i := by
      intro hki
      rw [ih]
      by_cases hi : k + 1 ≤ i ∧ i < k + 1 + xs.length
      · rw [dif_pos hi, dif_pos (by simp only [List.length_cons]; omega)]
        obtain ⟨m, hm⟩ : ∃ m, i - k = m + 1 := ⟨i - k - 1, by omega⟩
        have : i - (k + 1) = m := by omega
        simp [hm, this]
      · rw [dif_neg hi, dif_neg (by simp only [List.length_cons]; omega)]
    unfold Buf.ofListFrom
    by_cases hki : k = i
    · subst hki
      rw [dif_pos (by simp)]
      split
      · next hx =>
        rw [ih, dif_neg (by omega)]
        rw [Buf.read_of_absent b k (fun e he => by have := hb' e he; omega)]
        simp [hx]
      · simp [Buf.read]
    · split
      · exact hrest hki
      · rw [List.cons_append, Buf.read_cons, if_neg hki]
        exact hrest hki

/-- Read after a fill: the elements given below their number, and every other element as before. -/
theorem Buf.read_fill (b : Buf w) (xs : List (BitVec w)) (i : Nat) :
    Buf.read (Buf.fill b xs) i = if h : i < xs.length then xs[i] else Buf.read b i := by
  unfold Buf.fill
  rw [Buf.read_ofListFrom_append]
  · by_cases hi : i < xs.length
    · rw [dif_pos hi, dif_pos (by omega)]; simp
    · rw [dif_neg hi, dif_neg (by omega), Buf.read_filter b (fun n => decide (xs.length ≤ n))]
      rw [if_pos (by simpa using hi)]
  · intro e he
    have := (List.mem_filter.mp he).2
    simpa using this

/-! ### Canonical form and bound -/

@[simp] theorem Buf.wf_nil : Buf.wf ([] : Buf w) = true := rfl

@[simp] theorem Buf.below_nil (n : Nat) : Buf.below n ([] : Buf w) = true := rfl

theorem Buf.wf_cons (k : Nat) (x : BitVec w) (b : Buf w) :
    Buf.wf ((k, x) :: b) = true ↔ x ≠ 0 ∧ (∀ e ∈ b, k < e.1) ∧ Buf.wf b = true := by
  simp [Buf.wf, and_assoc]

theorem Buf.below_iff (n : Nat) (b : Buf w) : Buf.below n b = true ↔ ∀ e ∈ b, e.1 < n := by
  simp [Buf.below]

theorem Buf.wf_filter (b : Buf w) (p : Nat × BitVec w → Bool) (h : Buf.wf b = true) :
    Buf.wf (b.filter p) = true := by
  induction b with
  | nil => rfl
  | cons e b ih =>
    obtain ⟨k, x⟩ := e
    obtain ⟨hx, hlt, hb⟩ := (Buf.wf_cons k x b).mp h
    by_cases hp : p (k, x)
    · rw [List.filter_cons_of_pos hp, Buf.wf_cons]
      exact ⟨hx, fun e he => hlt e (List.mem_filter.mp he).1, ih hb⟩
    · rw [List.filter_cons_of_neg hp]; exact ih hb

theorem Buf.mem_insert (b : Buf w) (i : Nat) (v : BitVec w) (e : Nat × BitVec w)
    (h : e ∈ Buf.insert i v b) : e = (i, v) ∨ e ∈ b := by
  induction b with
  | nil => simpa [Buf.insert] using h
  | cons a b ih =>
    obtain ⟨k, x⟩ := a
    unfold Buf.insert at h
    split at h
    · simpa using h
    · rcases List.mem_cons.mp h with rfl | h
      · simp
      · rcases ih h with h | h <;> simp [h]

theorem Buf.wf_insert (b : Buf w) (i : Nat) (v : BitVec w) (hv : v ≠ 0) (hi : ∀ e ∈ b, e.1 ≠ i)
    (h : Buf.wf b = true) : Buf.wf (Buf.insert i v b) = true := by
  induction b with
  | nil => exact (Buf.wf_cons i v []).mpr ⟨hv, by simp, rfl⟩
  | cons a b ih =>
    obtain ⟨k, x⟩ := a
    obtain ⟨hx, hlt, hb⟩ := (Buf.wf_cons k x b).mp h
    unfold Buf.insert
    split
    · next hik =>
      rw [Buf.wf_cons]
      refine ⟨hv, fun e he => ?_, h⟩
      rcases List.mem_cons.mp he with rfl | he
      · exact hik
      · have := hlt e he; omega
    · next hik =>
      rw [Buf.wf_cons]
      have hki : k ≠ i := hi (k, x) (by simp)
      refine ⟨hx, fun e he => ?_, ih (fun e he => hi e (by simp [he])) hb⟩
      rcases Buf.mem_insert b i v e he with rfl | he
      · show k < i; omega
      · exact hlt e he

/-- A write keeps the canonical form. -/
theorem Buf.wf_write (b : Buf w) (i : Nat) (v : BitVec w) (h : Buf.wf b = true) :
    Buf.wf (Buf.write b i v) = true := by
  unfold Buf.write
  dsimp only
  split
  · exact Buf.wf_filter b _ h
  · next hv =>
    exact Buf.wf_insert _ i v hv (fun e he => by simpa using (List.mem_filter.mp he).2)
      (Buf.wf_filter b _ h)

/-- A write below the bound keeps the bound. -/
theorem Buf.below_write (b : Buf w) (n i : Nat) (v : BitVec w) (hi : i < n)
    (h : Buf.below n b = true) : Buf.below n (Buf.write b i v) = true := by
  rw [Buf.below_iff] at *
  intro e he
  unfold Buf.write at he
  dsimp only at he
  split at he
  · exact h e (List.mem_filter.mp he).1
  · rcases Buf.mem_insert _ i v e he with rfl | he
    · exact hi
    · exact h e (List.mem_filter.mp he).1

theorem Buf.wf_ofListFrom_append (xs : List (BitVec w)) (k : Nat) (b : Buf w)
    (hb : ∀ e ∈ b, k + xs.length ≤ e.1) (h : Buf.wf b = true) :
    Buf.wf (Buf.ofListFrom k xs ++ b) = true := by
  induction xs generalizing k with
  | nil => exact h
  | cons x xs ih =>
    have hb' : ∀ e ∈ b, k + 1 + xs.length ≤ e.1 := by
      intro e he; have := hb e he; simp only [List.length_cons] at this; omega
    unfold Buf.ofListFrom
    split
    · exact ih (k + 1) hb'
    · next hx =>
      rw [List.cons_append, Buf.wf_cons]
      refine ⟨hx, fun e he => ?_, ih (k + 1) hb'⟩
      rcases List.mem_append.mp he with he | he
      · have := Buf.mem_ofListFrom xs (k + 1) e he; omega
      · have := hb' e he; omega

/-- A fill keeps the canonical form. -/
theorem Buf.wf_fill (b : Buf w) (xs : List (BitVec w)) (h : Buf.wf b = true) :
    Buf.wf (Buf.fill b xs) = true := by
  refine Buf.wf_ofListFrom_append xs 0 _ (fun e he => ?_) (Buf.wf_filter b _ h)
  simpa using (List.mem_filter.mp he).2

/-- A fill of at most the bound keeps the bound. -/
theorem Buf.below_fill (b : Buf w) (n : Nat) (xs : List (BitVec w)) (hx : xs.length ≤ n)
    (h : Buf.below n b = true) : Buf.below n (Buf.fill b xs) = true := by
  rw [Buf.below_iff] at *
  intro e he
  rcases List.mem_append.mp he with he | he
  · have := Buf.mem_ofListFrom xs 0 e he; omega
  · exact h e (List.mem_filter.mp he).1

end Sys2Proof.Machine
end

