-- ==== Sys2Proof/Laws/State.lean ====
section
/-! SUPPORT. What each update of the state does to each field, one lemma per field per update. -/

namespace Sys2Proof.Machine

/-! ### `State.withResponse` -/

@[simp] theorem State.withResponse_banks (s : State) (r : Word) : (s.withResponse r).banks = s.banks := rfl
@[simp] theorem State.withResponse_rd (s : State) (r : Word) : (s.withResponse r).rd = s.rd := rfl
@[simp] theorem State.withResponse_hdr (s : State) (r : Word) : (s.withResponse r).hdr = s.hdr := rfl
@[simp] theorem State.withResponse_pay (s : State) (r : Word) : (s.withResponse r).pay = s.pay := rfl
@[simp] theorem State.withResponse_wb (s : State) (r : Word) : (s.withResponse r).wb = s.wb := rfl
@[simp] theorem State.withResponse_wCount (s : State) (r : Word) : (s.withResponse r).wCount = s.wCount := rfl
@[simp] theorem State.withResponse_frameN (s : State) (r : Word) : (s.withResponse r).frameN = s.frameN := rfl
@[simp] theorem State.withResponse_frameValid (s : State) (r : Word) : (s.withResponse r).frameValid = s.frameValid := rfl
@[simp] theorem State.withResponse_sym (s : State) (r : Word) : (s.withResponse r).sym = s.sym := rfl
@[simp] theorem State.withResponse_symCount (s : State) (r : Word) : (s.withResponse r).symCount = s.symCount := rfl
@[simp] theorem State.withResponse_symValid (s : State) (r : Word) : (s.withResponse r).symValid = s.symValid := rfl
@[simp] theorem State.withResponse_smp (s : State) (r : Word) : (s.withResponse r).smp = s.smp := rfl
@[simp] theorem State.withResponse_smpCount (s : State) (r : Word) : (s.withResponse r).smpCount = s.smpCount := rfl
@[simp] theorem State.withResponse_smpValid (s : State) (r : Word) : (s.withResponse r).smpValid = s.smpValid := rfl
@[simp] theorem State.withResponse_phase (s : State) (r : Word) : (s.withResponse r).phase = s.phase := rfl
@[simp] theorem State.withResponse_revCount (s : State) (r : Word) : (s.withResponse r).revCount = s.revCount := rfl
@[simp] theorem State.withResponse_cfg (s : State) (r : Word) : (s.withResponse r).cfg = s.cfg := rfl
@[simp] theorem State.withResponse_fault (s : State) (r : Word) : (s.withResponse r).fault = s.fault := rfl
@[simp] theorem State.withResponse_faultCode (s : State) (r : Word) : (s.withResponse r).faultCode = s.faultCode := rfl
@[simp] theorem State.withResponse_faultOp (s : State) (r : Word) : (s.withResponse r).faultOp = s.faultOp := rfl
@[simp] theorem State.withResponse_faultInfo (s : State) (r : Word) : (s.withResponse r).faultInfo = s.faultInfo := rfl
@[simp] theorem State.withResponse_inbox (s : State) (r : Word) : (s.withResponse r).inbox = s.inbox := rfl
@[simp] theorem State.withResponse_response (s : State) (r : Word) : (s.withResponse r).response = some r := rfl


/-! ### `State.withRecord` -/

@[simp] theorem State.withRecord_banks (s : State) (code op : Byte) (info : Half) : (s.withRecord code op info).banks = s.banks := rfl
@[simp] theorem State.withRecord_rd (s : State) (code op : Byte) (info : Half) : (s.withRecord code op info).rd = s.rd := rfl
@[simp] theorem State.withRecord_hdr (s : State) (code op : Byte) (info : Half) : (s.withRecord code op info).hdr = s.hdr := rfl
@[simp] theorem State.withRecord_pay (s : State) (code op : Byte) (info : Half) : (s.withRecord code op info).pay = s.pay := rfl
@[simp] theorem State.withRecord_wb (s : State) (code op : Byte) (info : Half) : (s.withRecord code op info).wb = s.wb := rfl
@[simp] theorem State.withRecord_wCount (s : State) (code op : Byte) (info : Half) : (s.withRecord code op info).wCount = s.wCount := rfl
@[simp] theorem State.withRecord_frameN (s : State) (code op : Byte) (info : Half) : (s.withRecord code op info).frameN = s.frameN := rfl
@[simp] theorem State.withRecord_frameValid (s : State) (code op : Byte) (info : Half) : (s.withRecord code op info).frameValid = s.frameValid := rfl
@[simp] theorem State.withRecord_sym (s : State) (code op : Byte) (info : Half) : (s.withRecord code op info).sym = s.sym := rfl
@[simp] theorem State.withRecord_symCount (s : State) (code op : Byte) (info : Half) : (s.withRecord code op info).symCount = s.symCount := rfl
@[simp] theorem State.withRecord_symValid (s : State) (code op : Byte) (info : Half) : (s.withRecord code op info).symValid = s.symValid := rfl
@[simp] theorem State.withRecord_smp (s : State) (code op : Byte) (info : Half) : (s.withRecord code op info).smp = s.smp := rfl
@[simp] theorem State.withRecord_smpCount (s : State) (code op : Byte) (info : Half) : (s.withRecord code op info).smpCount = s.smpCount := rfl
@[simp] theorem State.withRecord_smpValid (s : State) (code op : Byte) (info : Half) : (s.withRecord code op info).smpValid = s.smpValid := rfl
@[simp] theorem State.withRecord_phase (s : State) (code op : Byte) (info : Half) : (s.withRecord code op info).phase = s.phase := rfl
@[simp] theorem State.withRecord_revCount (s : State) (code op : Byte) (info : Half) : (s.withRecord code op info).revCount = s.revCount := rfl
@[simp] theorem State.withRecord_cfg (s : State) (code op : Byte) (info : Half) : (s.withRecord code op info).cfg = s.cfg := rfl
@[simp] theorem State.withRecord_fault (s : State) (code op : Byte) (info : Half) : (s.withRecord code op info).fault = true := rfl
@[simp] theorem State.withRecord_faultCode (s : State) (code op : Byte) (info : Half) : (s.withRecord code op info).faultCode = code := rfl
@[simp] theorem State.withRecord_faultOp (s : State) (code op : Byte) (info : Half) : (s.withRecord code op info).faultOp = op := rfl
@[simp] theorem State.withRecord_faultInfo (s : State) (code op : Byte) (info : Half) : (s.withRecord code op info).faultInfo = info := rfl
@[simp] theorem State.withRecord_inbox (s : State) (code op : Byte) (info : Half) : (s.withRecord code op info).inbox = s.inbox := rfl
@[simp] theorem State.withRecord_response (s : State) (code op : Byte) (info : Half) : (s.withRecord code op info).response = s.response := rfl


/-! ### `State.withBanks` -/

@[simp] theorem State.withBanks_banks (s : State) (bs : Banks) : (s.withBanks bs).banks = bs := rfl
@[simp] theorem State.withBanks_rd (s : State) (bs : Banks) : (s.withBanks bs).rd = s.rd := rfl
@[simp] theorem State.withBanks_hdr (s : State) (bs : Banks) : (s.withBanks bs).hdr = s.hdr := rfl
@[simp] theorem State.withBanks_pay (s : State) (bs : Banks) : (s.withBanks bs).pay = s.pay := rfl
@[simp] theorem State.withBanks_wb (s : State) (bs : Banks) : (s.withBanks bs).wb = s.wb := rfl
@[simp] theorem State.withBanks_wCount (s : State) (bs : Banks) : (s.withBanks bs).wCount = s.wCount := rfl
@[simp] theorem State.withBanks_frameN (s : State) (bs : Banks) : (s.withBanks bs).frameN = s.frameN := rfl
@[simp] theorem State.withBanks_frameValid (s : State) (bs : Banks) : (s.withBanks bs).frameValid = s.frameValid := rfl
@[simp] theorem State.withBanks_sym (s : State) (bs : Banks) : (s.withBanks bs).sym = s.sym := rfl
@[simp] theorem State.withBanks_symCount (s : State) (bs : Banks) : (s.withBanks bs).symCount = s.symCount := rfl
@[simp] theorem State.withBanks_symValid (s : State) (bs : Banks) : (s.withBanks bs).symValid = s.symValid := rfl
@[simp] theorem State.withBanks_smp (s : State) (bs : Banks) : (s.withBanks bs).smp = s.smp := rfl
@[simp] theorem State.withBanks_smpCount (s : State) (bs : Banks) : (s.withBanks bs).smpCount = s.smpCount := rfl
@[simp] theorem State.withBanks_smpValid (s : State) (bs : Banks) : (s.withBanks bs).smpValid = s.smpValid := rfl
@[simp] theorem State.withBanks_phase (s : State) (bs : Banks) : (s.withBanks bs).phase = s.phase := rfl
@[simp] theorem State.withBanks_revCount (s : State) (bs : Banks) : (s.withBanks bs).revCount = s.revCount := rfl
@[simp] theorem State.withBanks_cfg (s : State) (bs : Banks) : (s.withBanks bs).cfg = s.cfg := rfl
@[simp] theorem State.withBanks_fault (s : State) (bs : Banks) : (s.withBanks bs).fault = s.fault := rfl
@[simp] theorem State.withBanks_faultCode (s : State) (bs : Banks) : (s.withBanks bs).faultCode = s.faultCode := rfl
@[simp] theorem State.withBanks_faultOp (s : State) (bs : Banks) : (s.withBanks bs).faultOp = s.faultOp := rfl
@[simp] theorem State.withBanks_faultInfo (s : State) (bs : Banks) : (s.withBanks bs).faultInfo = s.faultInfo := rfl
@[simp] theorem State.withBanks_inbox (s : State) (bs : Banks) : (s.withBanks bs).inbox = s.inbox := rfl
@[simp] theorem State.withBanks_response (s : State) (bs : Banks) : (s.withBanks bs).response = s.response := rfl


/-! ### `State.withRd` -/

@[simp] theorem State.withRd_banks (s : State) (rd : Disparity) : (s.withRd rd).banks = s.banks := rfl
@[simp] theorem State.withRd_rd (s : State) (rd : Disparity) : (s.withRd rd).rd = rd := rfl
@[simp] theorem State.withRd_hdr (s : State) (rd : Disparity) : (s.withRd rd).hdr = s.hdr := rfl
@[simp] theorem State.withRd_pay (s : State) (rd : Disparity) : (s.withRd rd).pay = s.pay := rfl
@[simp] theorem State.withRd_wb (s : State) (rd : Disparity) : (s.withRd rd).wb = s.wb := rfl
@[simp] theorem State.withRd_wCount (s : State) (rd : Disparity) : (s.withRd rd).wCount = s.wCount := rfl
@[simp] theorem State.withRd_frameN (s : State) (rd : Disparity) : (s.withRd rd).frameN = s.frameN := rfl
@[simp] theorem State.withRd_frameValid (s : State) (rd : Disparity) : (s.withRd rd).frameValid = s.frameValid := rfl
@[simp] theorem State.withRd_sym (s : State) (rd : Disparity) : (s.withRd rd).sym = s.sym := rfl
@[simp] theorem State.withRd_symCount (s : State) (rd : Disparity) : (s.withRd rd).symCount = s.symCount := rfl
@[simp] theorem State.withRd_symValid (s : State) (rd : Disparity) : (s.withRd rd).symValid = s.symValid := rfl
@[simp] theorem State.withRd_smp (s : State) (rd : Disparity) : (s.withRd rd).smp = s.smp := rfl
@[simp] theorem State.withRd_smpCount (s : State) (rd : Disparity) : (s.withRd rd).smpCount = s.smpCount := rfl
@[simp] theorem State.withRd_smpValid (s : State) (rd : Disparity) : (s.withRd rd).smpValid = s.smpValid := rfl
@[simp] theorem State.withRd_phase (s : State) (rd : Disparity) : (s.withRd rd).phase = s.phase := rfl
@[simp] theorem State.withRd_revCount (s : State) (rd : Disparity) : (s.withRd rd).revCount = s.revCount := rfl
@[simp] theorem State.withRd_cfg (s : State) (rd : Disparity) : (s.withRd rd).cfg = s.cfg := rfl
@[simp] theorem State.withRd_fault (s : State) (rd : Disparity) : (s.withRd rd).fault = s.fault := rfl
@[simp] theorem State.withRd_faultCode (s : State) (rd : Disparity) : (s.withRd rd).faultCode = s.faultCode := rfl
@[simp] theorem State.withRd_faultOp (s : State) (rd : Disparity) : (s.withRd rd).faultOp = s.faultOp := rfl
@[simp] theorem State.withRd_faultInfo (s : State) (rd : Disparity) : (s.withRd rd).faultInfo = s.faultInfo := rfl
@[simp] theorem State.withRd_inbox (s : State) (rd : Disparity) : (s.withRd rd).inbox = s.inbox := rfl
@[simp] theorem State.withRd_response (s : State) (rd : Disparity) : (s.withRd rd).response = s.response := rfl


/-! ### `State.withHdr` -/

@[simp] theorem State.withHdr_banks (s : State) (b : Buf 8) : (s.withHdr b).banks = s.banks := rfl
@[simp] theorem State.withHdr_rd (s : State) (b : Buf 8) : (s.withHdr b).rd = s.rd := rfl
@[simp] theorem State.withHdr_hdr (s : State) (b : Buf 8) : (s.withHdr b).hdr = b := rfl
@[simp] theorem State.withHdr_pay (s : State) (b : Buf 8) : (s.withHdr b).pay = s.pay := rfl
@[simp] theorem State.withHdr_wb (s : State) (b : Buf 8) : (s.withHdr b).wb = s.wb := rfl
@[simp] theorem State.withHdr_wCount (s : State) (b : Buf 8) : (s.withHdr b).wCount = s.wCount := rfl
@[simp] theorem State.withHdr_frameN (s : State) (b : Buf 8) : (s.withHdr b).frameN = s.frameN := rfl
@[simp] theorem State.withHdr_frameValid (s : State) (b : Buf 8) : (s.withHdr b).frameValid = s.frameValid := rfl
@[simp] theorem State.withHdr_sym (s : State) (b : Buf 8) : (s.withHdr b).sym = s.sym := rfl
@[simp] theorem State.withHdr_symCount (s : State) (b : Buf 8) : (s.withHdr b).symCount = s.symCount := rfl
@[simp] theorem State.withHdr_symValid (s : State) (b : Buf 8) : (s.withHdr b).symValid = s.symValid := rfl
@[simp] theorem State.withHdr_smp (s : State) (b : Buf 8) : (s.withHdr b).smp = s.smp := rfl
@[simp] theorem State.withHdr_smpCount (s : State) (b : Buf 8) : (s.withHdr b).smpCount = s.smpCount := rfl
@[simp] theorem State.withHdr_smpValid (s : State) (b : Buf 8) : (s.withHdr b).smpValid = s.smpValid := rfl
@[simp] theorem State.withHdr_phase (s : State) (b : Buf 8) : (s.withHdr b).phase = s.phase := rfl
@[simp] theorem State.withHdr_revCount (s : State) (b : Buf 8) : (s.withHdr b).revCount = s.revCount := rfl
@[simp] theorem State.withHdr_cfg (s : State) (b : Buf 8) : (s.withHdr b).cfg = s.cfg := rfl
@[simp] theorem State.withHdr_fault (s : State) (b : Buf 8) : (s.withHdr b).fault = s.fault := rfl
@[simp] theorem State.withHdr_faultCode (s : State) (b : Buf 8) : (s.withHdr b).faultCode = s.faultCode := rfl
@[simp] theorem State.withHdr_faultOp (s : State) (b : Buf 8) : (s.withHdr b).faultOp = s.faultOp := rfl
@[simp] theorem State.withHdr_faultInfo (s : State) (b : Buf 8) : (s.withHdr b).faultInfo = s.faultInfo := rfl
@[simp] theorem State.withHdr_inbox (s : State) (b : Buf 8) : (s.withHdr b).inbox = s.inbox := rfl
@[simp] theorem State.withHdr_response (s : State) (b : Buf 8) : (s.withHdr b).response = s.response := rfl


/-! ### `State.withPay` -/

@[simp] theorem State.withPay_banks (s : State) (b : Buf 8) : (s.withPay b).banks = s.banks := rfl
@[simp] theorem State.withPay_rd (s : State) (b : Buf 8) : (s.withPay b).rd = s.rd := rfl
@[simp] theorem State.withPay_hdr (s : State) (b : Buf 8) : (s.withPay b).hdr = s.hdr := rfl
@[simp] theorem State.withPay_pay (s : State) (b : Buf 8) : (s.withPay b).pay = b := rfl
@[simp] theorem State.withPay_wb (s : State) (b : Buf 8) : (s.withPay b).wb = s.wb := rfl
@[simp] theorem State.withPay_wCount (s : State) (b : Buf 8) : (s.withPay b).wCount = s.wCount := rfl
@[simp] theorem State.withPay_frameN (s : State) (b : Buf 8) : (s.withPay b).frameN = s.frameN := rfl
@[simp] theorem State.withPay_frameValid (s : State) (b : Buf 8) : (s.withPay b).frameValid = s.frameValid := rfl
@[simp] theorem State.withPay_sym (s : State) (b : Buf 8) : (s.withPay b).sym = s.sym := rfl
@[simp] theorem State.withPay_symCount (s : State) (b : Buf 8) : (s.withPay b).symCount = s.symCount := rfl
@[simp] theorem State.withPay_symValid (s : State) (b : Buf 8) : (s.withPay b).symValid = s.symValid := rfl
@[simp] theorem State.withPay_smp (s : State) (b : Buf 8) : (s.withPay b).smp = s.smp := rfl
@[simp] theorem State.withPay_smpCount (s : State) (b : Buf 8) : (s.withPay b).smpCount = s.smpCount := rfl
@[simp] theorem State.withPay_smpValid (s : State) (b : Buf 8) : (s.withPay b).smpValid = s.smpValid := rfl
@[simp] theorem State.withPay_phase (s : State) (b : Buf 8) : (s.withPay b).phase = s.phase := rfl
@[simp] theorem State.withPay_revCount (s : State) (b : Buf 8) : (s.withPay b).revCount = s.revCount := rfl
@[simp] theorem State.withPay_cfg (s : State) (b : Buf 8) : (s.withPay b).cfg = s.cfg := rfl
@[simp] theorem State.withPay_fault (s : State) (b : Buf 8) : (s.withPay b).fault = s.fault := rfl
@[simp] theorem State.withPay_faultCode (s : State) (b : Buf 8) : (s.withPay b).faultCode = s.faultCode := rfl
@[simp] theorem State.withPay_faultOp (s : State) (b : Buf 8) : (s.withPay b).faultOp = s.faultOp := rfl
@[simp] theorem State.withPay_faultInfo (s : State) (b : Buf 8) : (s.withPay b).faultInfo = s.faultInfo := rfl
@[simp] theorem State.withPay_inbox (s : State) (b : Buf 8) : (s.withPay b).inbox = s.inbox := rfl
@[simp] theorem State.withPay_response (s : State) (b : Buf 8) : (s.withPay b).response = s.response := rfl


/-! ### `State.withFrameValid` -/

@[simp] theorem State.withFrameValid_banks (s : State) (v : Bool) : (s.withFrameValid v).banks = s.banks := rfl
@[simp] theorem State.withFrameValid_rd (s : State) (v : Bool) : (s.withFrameValid v).rd = s.rd := rfl
@[simp] theorem State.withFrameValid_hdr (s : State) (v : Bool) : (s.withFrameValid v).hdr = s.hdr := rfl
@[simp] theorem State.withFrameValid_pay (s : State) (v : Bool) : (s.withFrameValid v).pay = s.pay := rfl
@[simp] theorem State.withFrameValid_wb (s : State) (v : Bool) : (s.withFrameValid v).wb = s.wb := rfl
@[simp] theorem State.withFrameValid_wCount (s : State) (v : Bool) : (s.withFrameValid v).wCount = s.wCount := rfl
@[simp] theorem State.withFrameValid_frameN (s : State) (v : Bool) : (s.withFrameValid v).frameN = s.frameN := rfl
@[simp] theorem State.withFrameValid_frameValid (s : State) (v : Bool) : (s.withFrameValid v).frameValid = v := rfl
@[simp] theorem State.withFrameValid_sym (s : State) (v : Bool) : (s.withFrameValid v).sym = s.sym := rfl
@[simp] theorem State.withFrameValid_symCount (s : State) (v : Bool) : (s.withFrameValid v).symCount = s.symCount := rfl
@[simp] theorem State.withFrameValid_symValid (s : State) (v : Bool) : (s.withFrameValid v).symValid = s.symValid := rfl
@[simp] theorem State.withFrameValid_smp (s : State) (v : Bool) : (s.withFrameValid v).smp = s.smp := rfl
@[simp] theorem State.withFrameValid_smpCount (s : State) (v : Bool) : (s.withFrameValid v).smpCount = s.smpCount := rfl
@[simp] theorem State.withFrameValid_smpValid (s : State) (v : Bool) : (s.withFrameValid v).smpValid = s.smpValid := rfl
@[simp] theorem State.withFrameValid_phase (s : State) (v : Bool) : (s.withFrameValid v).phase = s.phase := rfl
@[simp] theorem State.withFrameValid_revCount (s : State) (v : Bool) : (s.withFrameValid v).revCount = s.revCount := rfl
@[simp] theorem State.withFrameValid_cfg (s : State) (v : Bool) : (s.withFrameValid v).cfg = s.cfg := rfl
@[simp] theorem State.withFrameValid_fault (s : State) (v : Bool) : (s.withFrameValid v).fault = s.fault := rfl
@[simp] theorem State.withFrameValid_faultCode (s : State) (v : Bool) : (s.withFrameValid v).faultCode = s.faultCode := rfl
@[simp] theorem State.withFrameValid_faultOp (s : State) (v : Bool) : (s.withFrameValid v).faultOp = s.faultOp := rfl
@[simp] theorem State.withFrameValid_faultInfo (s : State) (v : Bool) : (s.withFrameValid v).faultInfo = s.faultInfo := rfl
@[simp] theorem State.withFrameValid_inbox (s : State) (v : Bool) : (s.withFrameValid v).inbox = s.inbox := rfl
@[simp] theorem State.withFrameValid_response (s : State) (v : Bool) : (s.withFrameValid v).response = s.response := rfl


/-! ### `State.withFrame` -/

@[simp] theorem State.withFrame_banks (s : State) (b : Buf 8) (c n : Nat) : (s.withFrame b c n).banks = s.banks := rfl
@[simp] theorem State.withFrame_rd (s : State) (b : Buf 8) (c n : Nat) : (s.withFrame b c n).rd = s.rd := rfl
@[simp] theorem State.withFrame_hdr (s : State) (b : Buf 8) (c n : Nat) : (s.withFrame b c n).hdr = s.hdr := rfl
@[simp] theorem State.withFrame_pay (s : State) (b : Buf 8) (c n : Nat) : (s.withFrame b c n).pay = s.pay := rfl
@[simp] theorem State.withFrame_wb (s : State) (b : Buf 8) (c n : Nat) : (s.withFrame b c n).wb = b := rfl
@[simp] theorem State.withFrame_wCount (s : State) (b : Buf 8) (c n : Nat) : (s.withFrame b c n).wCount = c := rfl
@[simp] theorem State.withFrame_frameN (s : State) (b : Buf 8) (c n : Nat) : (s.withFrame b c n).frameN = n := rfl
@[simp] theorem State.withFrame_frameValid (s : State) (b : Buf 8) (c n : Nat) : (s.withFrame b c n).frameValid = s.frameValid := rfl
@[simp] theorem State.withFrame_sym (s : State) (b : Buf 8) (c n : Nat) : (s.withFrame b c n).sym = s.sym := rfl
@[simp] theorem State.withFrame_symCount (s : State) (b : Buf 8) (c n : Nat) : (s.withFrame b c n).symCount = s.symCount := rfl
@[simp] theorem State.withFrame_symValid (s : State) (b : Buf 8) (c n : Nat) : (s.withFrame b c n).symValid = s.symValid := rfl
@[simp] theorem State.withFrame_smp (s : State) (b : Buf 8) (c n : Nat) : (s.withFrame b c n).smp = s.smp := rfl
@[simp] theorem State.withFrame_smpCount (s : State) (b : Buf 8) (c n : Nat) : (s.withFrame b c n).smpCount = s.smpCount := rfl
@[simp] theorem State.withFrame_smpValid (s : State) (b : Buf 8) (c n : Nat) : (s.withFrame b c n).smpValid = s.smpValid := rfl
@[simp] theorem State.withFrame_phase (s : State) (b : Buf 8) (c n : Nat) : (s.withFrame b c n).phase = s.phase := rfl
@[simp] theorem State.withFrame_revCount (s : State) (b : Buf 8) (c n : Nat) : (s.withFrame b c n).revCount = s.revCount := rfl
@[simp] theorem State.withFrame_cfg (s : State) (b : Buf 8) (c n : Nat) : (s.withFrame b c n).cfg = s.cfg := rfl
@[simp] theorem State.withFrame_fault (s : State) (b : Buf 8) (c n : Nat) : (s.withFrame b c n).fault = s.fault := rfl
@[simp] theorem State.withFrame_faultCode (s : State) (b : Buf 8) (c n : Nat) : (s.withFrame b c n).faultCode = s.faultCode := rfl
@[simp] theorem State.withFrame_faultOp (s : State) (b : Buf 8) (c n : Nat) : (s.withFrame b c n).faultOp = s.faultOp := rfl
@[simp] theorem State.withFrame_faultInfo (s : State) (b : Buf 8) (c n : Nat) : (s.withFrame b c n).faultInfo = s.faultInfo := rfl
@[simp] theorem State.withFrame_inbox (s : State) (b : Buf 8) (c n : Nat) : (s.withFrame b c n).inbox = s.inbox := rfl
@[simp] theorem State.withFrame_response (s : State) (b : Buf 8) (c n : Nat) : (s.withFrame b c n).response = s.response := rfl


/-! ### `State.withSymbols` -/

@[simp] theorem State.withSymbols_banks (s : State) (b : Buf 10) (c : Nat) : (s.withSymbols b c).banks = s.banks := rfl
@[simp] theorem State.withSymbols_rd (s : State) (b : Buf 10) (c : Nat) : (s.withSymbols b c).rd = s.rd := rfl
@[simp] theorem State.withSymbols_hdr (s : State) (b : Buf 10) (c : Nat) : (s.withSymbols b c).hdr = s.hdr := rfl
@[simp] theorem State.withSymbols_pay (s : State) (b : Buf 10) (c : Nat) : (s.withSymbols b c).pay = s.pay := rfl
@[simp] theorem State.withSymbols_wb (s : State) (b : Buf 10) (c : Nat) : (s.withSymbols b c).wb = s.wb := rfl
@[simp] theorem State.withSymbols_wCount (s : State) (b : Buf 10) (c : Nat) : (s.withSymbols b c).wCount = s.wCount := rfl
@[simp] theorem State.withSymbols_frameN (s : State) (b : Buf 10) (c : Nat) : (s.withSymbols b c).frameN = s.frameN := rfl
@[simp] theorem State.withSymbols_frameValid (s : State) (b : Buf 10) (c : Nat) : (s.withSymbols b c).frameValid = s.frameValid := rfl
@[simp] theorem State.withSymbols_sym (s : State) (b : Buf 10) (c : Nat) : (s.withSymbols b c).sym = b := rfl
@[simp] theorem State.withSymbols_symCount (s : State) (b : Buf 10) (c : Nat) : (s.withSymbols b c).symCount = c := rfl
@[simp] theorem State.withSymbols_symValid (s : State) (b : Buf 10) (c : Nat) : (s.withSymbols b c).symValid = true := rfl
@[simp] theorem State.withSymbols_smp (s : State) (b : Buf 10) (c : Nat) : (s.withSymbols b c).smp = s.smp := rfl
@[simp] theorem State.withSymbols_smpCount (s : State) (b : Buf 10) (c : Nat) : (s.withSymbols b c).smpCount = s.smpCount := rfl
@[simp] theorem State.withSymbols_smpValid (s : State) (b : Buf 10) (c : Nat) : (s.withSymbols b c).smpValid = s.smpValid := rfl
@[simp] theorem State.withSymbols_phase (s : State) (b : Buf 10) (c : Nat) : (s.withSymbols b c).phase = s.phase := rfl
@[simp] theorem State.withSymbols_revCount (s : State) (b : Buf 10) (c : Nat) : (s.withSymbols b c).revCount = s.revCount := rfl
@[simp] theorem State.withSymbols_cfg (s : State) (b : Buf 10) (c : Nat) : (s.withSymbols b c).cfg = s.cfg := rfl
@[simp] theorem State.withSymbols_fault (s : State) (b : Buf 10) (c : Nat) : (s.withSymbols b c).fault = s.fault := rfl
@[simp] theorem State.withSymbols_faultCode (s : State) (b : Buf 10) (c : Nat) : (s.withSymbols b c).faultCode = s.faultCode := rfl
@[simp] theorem State.withSymbols_faultOp (s : State) (b : Buf 10) (c : Nat) : (s.withSymbols b c).faultOp = s.faultOp := rfl
@[simp] theorem State.withSymbols_faultInfo (s : State) (b : Buf 10) (c : Nat) : (s.withSymbols b c).faultInfo = s.faultInfo := rfl
@[simp] theorem State.withSymbols_inbox (s : State) (b : Buf 10) (c : Nat) : (s.withSymbols b c).inbox = s.inbox := rfl
@[simp] theorem State.withSymbols_response (s : State) (b : Buf 10) (c : Nat) : (s.withSymbols b c).response = s.response := rfl


/-! ### `State.withSamples` -/

@[simp] theorem State.withSamples_banks (s : State) (b : Buf 16) (c : Nat) : (s.withSamples b c).banks = s.banks := rfl
@[simp] theorem State.withSamples_rd (s : State) (b : Buf 16) (c : Nat) : (s.withSamples b c).rd = s.rd := rfl
@[simp] theorem State.withSamples_hdr (s : State) (b : Buf 16) (c : Nat) : (s.withSamples b c).hdr = s.hdr := rfl
@[simp] theorem State.withSamples_pay (s : State) (b : Buf 16) (c : Nat) : (s.withSamples b c).pay = s.pay := rfl
@[simp] theorem State.withSamples_wb (s : State) (b : Buf 16) (c : Nat) : (s.withSamples b c).wb = s.wb := rfl
@[simp] theorem State.withSamples_wCount (s : State) (b : Buf 16) (c : Nat) : (s.withSamples b c).wCount = s.wCount := rfl
@[simp] theorem State.withSamples_frameN (s : State) (b : Buf 16) (c : Nat) : (s.withSamples b c).frameN = s.frameN := rfl
@[simp] theorem State.withSamples_frameValid (s : State) (b : Buf 16) (c : Nat) : (s.withSamples b c).frameValid = s.frameValid := rfl
@[simp] theorem State.withSamples_sym (s : State) (b : Buf 16) (c : Nat) : (s.withSamples b c).sym = s.sym := rfl
@[simp] theorem State.withSamples_symCount (s : State) (b : Buf 16) (c : Nat) : (s.withSamples b c).symCount = s.symCount := rfl
@[simp] theorem State.withSamples_symValid (s : State) (b : Buf 16) (c : Nat) : (s.withSamples b c).symValid = s.symValid := rfl
@[simp] theorem State.withSamples_smp (s : State) (b : Buf 16) (c : Nat) : (s.withSamples b c).smp = b := rfl
@[simp] theorem State.withSamples_smpCount (s : State) (b : Buf 16) (c : Nat) : (s.withSamples b c).smpCount = c := rfl
@[simp] theorem State.withSamples_smpValid (s : State) (b : Buf 16) (c : Nat) : (s.withSamples b c).smpValid = true := rfl
@[simp] theorem State.withSamples_phase (s : State) (b : Buf 16) (c : Nat) : (s.withSamples b c).phase = s.phase := rfl
@[simp] theorem State.withSamples_revCount (s : State) (b : Buf 16) (c : Nat) : (s.withSamples b c).revCount = s.revCount := rfl
@[simp] theorem State.withSamples_cfg (s : State) (b : Buf 16) (c : Nat) : (s.withSamples b c).cfg = s.cfg := rfl
@[simp] theorem State.withSamples_fault (s : State) (b : Buf 16) (c : Nat) : (s.withSamples b c).fault = s.fault := rfl
@[simp] theorem State.withSamples_faultCode (s : State) (b : Buf 16) (c : Nat) : (s.withSamples b c).faultCode = s.faultCode := rfl
@[simp] theorem State.withSamples_faultOp (s : State) (b : Buf 16) (c : Nat) : (s.withSamples b c).faultOp = s.faultOp := rfl
@[simp] theorem State.withSamples_faultInfo (s : State) (b : Buf 16) (c : Nat) : (s.withSamples b c).faultInfo = s.faultInfo := rfl
@[simp] theorem State.withSamples_inbox (s : State) (b : Buf 16) (c : Nat) : (s.withSamples b c).inbox = s.inbox := rfl
@[simp] theorem State.withSamples_response (s : State) (b : Buf 16) (c : Nat) : (s.withSamples b c).response = s.response := rfl


/-! ### `State.withPhase` -/

@[simp] theorem State.withPhase_banks (s : State) (p : Phase) (r : Nat) : (s.withPhase p r).banks = s.banks := rfl
@[simp] theorem State.withPhase_rd (s : State) (p : Phase) (r : Nat) : (s.withPhase p r).rd = s.rd := rfl
@[simp] theorem State.withPhase_hdr (s : State) (p : Phase) (r : Nat) : (s.withPhase p r).hdr = s.hdr := rfl
@[simp] theorem State.withPhase_pay (s : State) (p : Phase) (r : Nat) : (s.withPhase p r).pay = s.pay := rfl
@[simp] theorem State.withPhase_wb (s : State) (p : Phase) (r : Nat) : (s.withPhase p r).wb = s.wb := rfl
@[simp] theorem State.withPhase_wCount (s : State) (p : Phase) (r : Nat) : (s.withPhase p r).wCount = s.wCount := rfl
@[simp] theorem State.withPhase_frameN (s : State) (p : Phase) (r : Nat) : (s.withPhase p r).frameN = s.frameN := rfl
@[simp] theorem State.withPhase_frameValid (s : State) (p : Phase) (r : Nat) : (s.withPhase p r).frameValid = s.frameValid := rfl
@[simp] theorem State.withPhase_sym (s : State) (p : Phase) (r : Nat) : (s.withPhase p r).sym = s.sym := rfl
@[simp] theorem State.withPhase_symCount (s : State) (p : Phase) (r : Nat) : (s.withPhase p r).symCount = s.symCount := rfl
@[simp] theorem State.withPhase_symValid (s : State) (p : Phase) (r : Nat) : (s.withPhase p r).symValid = s.symValid := rfl
@[simp] theorem State.withPhase_smp (s : State) (p : Phase) (r : Nat) : (s.withPhase p r).smp = s.smp := rfl
@[simp] theorem State.withPhase_smpCount (s : State) (p : Phase) (r : Nat) : (s.withPhase p r).smpCount = s.smpCount := rfl
@[simp] theorem State.withPhase_smpValid (s : State) (p : Phase) (r : Nat) : (s.withPhase p r).smpValid = s.smpValid := rfl
@[simp] theorem State.withPhase_phase (s : State) (p : Phase) (r : Nat) : (s.withPhase p r).phase = p := rfl
@[simp] theorem State.withPhase_revCount (s : State) (p : Phase) (r : Nat) : (s.withPhase p r).revCount = r := rfl
@[simp] theorem State.withPhase_cfg (s : State) (p : Phase) (r : Nat) : (s.withPhase p r).cfg = s.cfg := rfl
@[simp] theorem State.withPhase_fault (s : State) (p : Phase) (r : Nat) : (s.withPhase p r).fault = s.fault := rfl
@[simp] theorem State.withPhase_faultCode (s : State) (p : Phase) (r : Nat) : (s.withPhase p r).faultCode = s.faultCode := rfl
@[simp] theorem State.withPhase_faultOp (s : State) (p : Phase) (r : Nat) : (s.withPhase p r).faultOp = s.faultOp := rfl
@[simp] theorem State.withPhase_faultInfo (s : State) (p : Phase) (r : Nat) : (s.withPhase p r).faultInfo = s.faultInfo := rfl
@[simp] theorem State.withPhase_inbox (s : State) (p : Phase) (r : Nat) : (s.withPhase p r).inbox = s.inbox := rfl
@[simp] theorem State.withPhase_response (s : State) (p : Phase) (r : Nat) : (s.withPhase p r).response = s.response := rfl


/-! ### `State.withCfg` -/

@[simp] theorem State.withCfg_banks (s : State) (c : Cfg) : (s.withCfg c).banks = s.banks := rfl
@[simp] theorem State.withCfg_rd (s : State) (c : Cfg) : (s.withCfg c).rd = s.rd := rfl
@[simp] theorem State.withCfg_hdr (s : State) (c : Cfg) : (s.withCfg c).hdr = s.hdr := rfl
@[simp] theorem State.withCfg_pay (s : State) (c : Cfg) : (s.withCfg c).pay = s.pay := rfl
@[simp] theorem State.withCfg_wb (s : State) (c : Cfg) : (s.withCfg c).wb = s.wb := rfl
@[simp] theorem State.withCfg_wCount (s : State) (c : Cfg) : (s.withCfg c).wCount = s.wCount := rfl
@[simp] theorem State.withCfg_frameN (s : State) (c : Cfg) : (s.withCfg c).frameN = s.frameN := rfl
@[simp] theorem State.withCfg_frameValid (s : State) (c : Cfg) : (s.withCfg c).frameValid = s.frameValid := rfl
@[simp] theorem State.withCfg_sym (s : State) (c : Cfg) : (s.withCfg c).sym = s.sym := rfl
@[simp] theorem State.withCfg_symCount (s : State) (c : Cfg) : (s.withCfg c).symCount = s.symCount := rfl
@[simp] theorem State.withCfg_symValid (s : State) (c : Cfg) : (s.withCfg c).symValid = s.symValid := rfl
@[simp] theorem State.withCfg_smp (s : State) (c : Cfg) : (s.withCfg c).smp = s.smp := rfl
@[simp] theorem State.withCfg_smpCount (s : State) (c : Cfg) : (s.withCfg c).smpCount = s.smpCount := rfl
@[simp] theorem State.withCfg_smpValid (s : State) (c : Cfg) : (s.withCfg c).smpValid = s.smpValid := rfl
@[simp] theorem State.withCfg_phase (s : State) (c : Cfg) : (s.withCfg c).phase = s.phase := rfl
@[simp] theorem State.withCfg_revCount (s : State) (c : Cfg) : (s.withCfg c).revCount = s.revCount := rfl
@[simp] theorem State.withCfg_cfg (s : State) (c : Cfg) : (s.withCfg c).cfg = c := rfl
@[simp] theorem State.withCfg_fault (s : State) (c : Cfg) : (s.withCfg c).fault = s.fault := rfl
@[simp] theorem State.withCfg_faultCode (s : State) (c : Cfg) : (s.withCfg c).faultCode = s.faultCode := rfl
@[simp] theorem State.withCfg_faultOp (s : State) (c : Cfg) : (s.withCfg c).faultOp = s.faultOp := rfl
@[simp] theorem State.withCfg_faultInfo (s : State) (c : Cfg) : (s.withCfg c).faultInfo = s.faultInfo := rfl
@[simp] theorem State.withCfg_inbox (s : State) (c : Cfg) : (s.withCfg c).inbox = s.inbox := rfl
@[simp] theorem State.withCfg_response (s : State) (c : Cfg) : (s.withCfg c).response = s.response := rfl


/-! ### `State.withInbox` -/

@[simp] theorem State.withInbox_banks (s : State) (xs : List HostInput) : (s.withInbox xs).banks = s.banks := rfl
@[simp] theorem State.withInbox_rd (s : State) (xs : List HostInput) : (s.withInbox xs).rd = s.rd := rfl
@[simp] theorem State.withInbox_hdr (s : State) (xs : List HostInput) : (s.withInbox xs).hdr = s.hdr := rfl
@[simp] theorem State.withInbox_pay (s : State) (xs : List HostInput) : (s.withInbox xs).pay = s.pay := rfl
@[simp] theorem State.withInbox_wb (s : State) (xs : List HostInput) : (s.withInbox xs).wb = s.wb := rfl
@[simp] theorem State.withInbox_wCount (s : State) (xs : List HostInput) : (s.withInbox xs).wCount = s.wCount := rfl
@[simp] theorem State.withInbox_frameN (s : State) (xs : List HostInput) : (s.withInbox xs).frameN = s.frameN := rfl
@[simp] theorem State.withInbox_frameValid (s : State) (xs : List HostInput) : (s.withInbox xs).frameValid = s.frameValid := rfl
@[simp] theorem State.withInbox_sym (s : State) (xs : List HostInput) : (s.withInbox xs).sym = s.sym := rfl
@[simp] theorem State.withInbox_symCount (s : State) (xs : List HostInput) : (s.withInbox xs).symCount = s.symCount := rfl
@[simp] theorem State.withInbox_symValid (s : State) (xs : List HostInput) : (s.withInbox xs).symValid = s.symValid := rfl
@[simp] theorem State.withInbox_smp (s : State) (xs : List HostInput) : (s.withInbox xs).smp = s.smp := rfl
@[simp] theorem State.withInbox_smpCount (s : State) (xs : List HostInput) : (s.withInbox xs).smpCount = s.smpCount := rfl
@[simp] theorem State.withInbox_smpValid (s : State) (xs : List HostInput) : (s.withInbox xs).smpValid = s.smpValid := rfl
@[simp] theorem State.withInbox_phase (s : State) (xs : List HostInput) : (s.withInbox xs).phase = s.phase := rfl
@[simp] theorem State.withInbox_revCount (s : State) (xs : List HostInput) : (s.withInbox xs).revCount = s.revCount := rfl
@[simp] theorem State.withInbox_cfg (s : State) (xs : List HostInput) : (s.withInbox xs).cfg = s.cfg := rfl
@[simp] theorem State.withInbox_fault (s : State) (xs : List HostInput) : (s.withInbox xs).fault = s.fault := rfl
@[simp] theorem State.withInbox_faultCode (s : State) (xs : List HostInput) : (s.withInbox xs).faultCode = s.faultCode := rfl
@[simp] theorem State.withInbox_faultOp (s : State) (xs : List HostInput) : (s.withInbox xs).faultOp = s.faultOp := rfl
@[simp] theorem State.withInbox_faultInfo (s : State) (xs : List HostInput) : (s.withInbox xs).faultInfo = s.faultInfo := rfl
@[simp] theorem State.withInbox_inbox (s : State) (xs : List HostInput) : (s.withInbox xs).inbox = xs := rfl
@[simp] theorem State.withInbox_response (s : State) (xs : List HostInput) : (s.withInbox xs).response = s.response := rfl


/-! ### `State.respond`, `State.disturbBanks` and `State.hardReset` in terms of the updates -/

theorem State.respond_eq (s : State) (v : Half) : s.respond v = s.withResponse (responseWord 0 v) := rfl

theorem State.disturbBanks_eq (s : State) (bs : Banks) :
    s.disturbBanks bs = (s.withBanks bs).withFrameValid false := rfl

theorem State.hardReset_eq (s : State) : s.hardReset = State.reset.withInbox s.inbox := rfl

end Sys2Proof.Machine
end

