-- ==== Sys2Proof/Laws/Ops.lean ====
section
/-! SUPPORT. What each shared operation can do, said once: the banks, raising an error, answering, serving, and taking
an input off the port. -/

namespace Sys2Proof.Machine

/-! ### Banks -/

theorem bankOf_eq (bs : Banks) (n : Nat) (h : n < 8) : bankOf bs n = bs[n] := by
  simp [bankOf, h]

/-- Replacing a bank that exists: that bank is the new one, every other as before. -/
theorem bankOf_putBank (bs : Banks) (n m : Nat) (b : Bank) (h : n < 8) :
    bankOf (putBank bs n b) m = if n = m then b else bankOf bs m := by
  unfold bankOf putBank
  rw [Vector.getElem?_setIfInBounds]
  by_cases hnm : n = m
  · simp [hnm, show m < 8 by omega]
  · simp [hnm]

@[simp] theorem bankOf_putBank_same (bs : Banks) (n : Nat) (b : Bank) (h : n < 8) :
    bankOf (putBank bs n b) n = b := by simp [bankOf_putBank, h]

theorem bankOf_putBank_other (bs : Banks) (n m : Nat) (b : Bank) (h : n < 8) (hm : m ≠ n) :
    bankOf (putBank bs n b) m = bankOf bs m := by simp [bankOf_putBank, h, Ne.symm hm]

/-- A bank number of a command names one of the eight places. -/
theorem bankNumber_lt (b : BitVec 3) : b.toNat < 8 := b.isLt

/-! ### Raising an error (60 R116) -/

theorem State.raise_of_fault (s : State) (e : ErrKind) (c : Word) (h : s.fault = true) :
    s.raise e c = s.withResponse (responseWord e.code 0) := by simp [State.raise, h]

theorem State.raise_of_no_fault (s : State) (e : ErrKind) (c : Word) (h : s.fault = false) :
    s.raise e c =
      (s.withRecord e.code (opcodeOf c) (c.extractLsb' 0 16)).withResponse (responseWord e.code 0) := by
  simp [State.raise, h]

@[simp] theorem State.raise_fault (s : State) (e : ErrKind) (c : Word) : (s.raise e c).fault = true := by
  unfold State.raise
  split
  · next h => simpa using h
  · rfl

@[simp] theorem State.raise_response (s : State) (e : ErrKind) (c : Word) :
    (s.raise e c).response = some (responseWord e.code 0) := rfl

/-- An error changes nothing but the fault record and the response. -/
theorem State.raise_frame (s : State) (e : ErrKind) (c : Word) :
    s.raise e c = { s with
      fault := true, faultCode := (s.raise e c).faultCode, faultOp := (s.raise e c).faultOp,
      faultInfo := (s.raise e c).faultInfo, response := some (responseWord e.code 0) } := by
  unfold State.raise
  split
  · next h => rw [← h]; rfl
  · rfl

/-! ### Response words -/

theorem responseWord_status (st : Byte) (v : Half) : (responseWord st v).extractLsb' 24 8 = st := by
  unfold responseWord
  apply BitVec.eq_of_getLsbD_eq
  intro i hi
  simp only [BitVec.getLsbD_extractLsb', BitVec.getLsbD_append]
  simp [hi, show ¬ (24 + i < 16) by omega, show 24 + i - 16 - 8 = i by omega]
  intro _
  omega

theorem responseWord_result (st : Byte) (v : Half) : (responseWord st v).extractLsb' 0 16 = v := by
  unfold responseWord
  apply BitVec.eq_of_getLsbD_eq
  intro i hi
  simp only [BitVec.getLsbD_extractLsb', BitVec.getLsbD_append]
  simp [hi]

/-! ### Serving a command -/

/-- Every command is answered: serving never stops. -/
theorem serve_next (i : Instr) (rule : State → Reply) (s : State) : ∃ t, serve i rule s = .next t := by
  unfold serve
  split
  · exact ⟨_, rfl⟩
  · cases rule s <;> exact ⟨_, rfl⟩

theorem serveAlways_next (i : Instr) (rule : State → Reply) (s : State) :
    ∃ t, serveAlways i rule s = .next t := by
  unfold serveAlways
  cases rule s <;> exact ⟨_, rfl⟩

/-- What serving a command can do: E_FAULTED in the faulted state, else the rule's state with its result, or the rule's
error. -/
theorem serve_cases (i : Instr) (rule : State → Reply) (s t : State) (h : serve i rule s = .next t) :
    (s.fault = true ∧ t = s.raise .faulted (encode i)) ∨
    (s.fault = false ∧ ∃ u v, rule s = .ok (u, v) ∧ t = u.respond v) ∨
    (s.fault = false ∧ ∃ e, rule s = .error e ∧ t = s.raise e (encode i)) := by
  unfold serve at h
  split at h
  · next hf => left; injection h with h; exact ⟨hf, h.symm⟩
  · next hf =>
    right
    have hf : s.fault = false := by simpa using hf
    cases hr : rule s with
    | ok p =>
      left
      rw [hr] at h
      injection h with h
      exact ⟨hf, p.1, p.2, rfl, h.symm⟩
    | error e =>
      right
      rw [hr] at h
      injection h with h
      exact ⟨hf, e, rfl, h.symm⟩

/-- What serving NOP or CFG_RD can do, in either state. -/
theorem serveAlways_cases (i : Instr) (rule : State → Reply) (s t : State)
    (h : serveAlways i rule s = .next t) :
    (∃ u v, rule s = .ok (u, v) ∧ t = u.respond v) ∨
    (∃ e, rule s = .error e ∧ t = s.raise e (encode i)) := by
  unfold serveAlways at h
  cases hr : rule s with
  | ok p =>
    left
    rw [hr] at h
    injection h with h
    exact ⟨p.1, p.2, rfl, h.symm⟩
  | error e =>
    right
    rw [hr] at h
    injection h with h
    exact ⟨e, rfl, h.symm⟩

theorem serve_of_fault (i : Instr) (rule : State → Reply) (s : State) (h : s.fault = true) :
    serve i rule s = .next (s.raise .faulted (encode i)) := by simp [serve, h]

theorem serve_of_ok (i : Instr) (rule : State → Reply) (s u : State) (v : Half) (hf : s.fault = false)
    (h : rule s = .ok (u, v)) : serve i rule s = .next (u.respond v) := by simp [serve, hf, h, answer]

theorem serve_of_error (i : Instr) (rule : State → Reply) (s : State) (e : ErrKind) (hf : s.fault = false)
    (h : rule s = .error e) : serve i rule s = .next (s.raise e (encode i)) := by
  simp [serve, hf, h, answer]

/-! ### The port -/

theorem fetch_idle (s : State) (h : s.inbox = []) : fetch s = (.idle, s) := by simp [fetch, h]

theorem fetch_hardReset (s : State) (rest : List HostInput) (h : s.inbox = .hardReset :: rest) :
    fetch s = (.hardReset, s.withInbox rest) := by simp [fetch, h]

theorem fetch_command (s : State) (c : Word) (i : Instr) (rest : List HostInput)
    (h : s.inbox = .command c :: rest) (hd : decode c = .ok i) :
    fetch s = (.command i, s.withInbox rest) := by simp [fetch, h, hd]

theorem fetch_illegal (s : State) (c : Word) (e : IllegalWord) (rest : List HostInput)
    (h : s.inbox = .command c :: rest) (hd : decode c = .error e) :
    fetch s = (.illegal c, s.withInbox rest) := by simp [fetch, h, hd]

/-- What one step can do. -/
theorem step_cases (s t : State) (h : step s = .next t) :
    (s.inbox = [] ∧ t = s) ∨
    (∃ rest, s.inbox = .hardReset :: rest ∧ t = (s.withInbox rest).hardReset) ∨
    (∃ c rest i, s.inbox = .command c :: rest ∧ decode c = .ok i ∧ exec i (s.withInbox rest) = .next t) ∨
    (∃ c rest e, s.inbox = .command c :: rest ∧ decode c = .error e ∧
      execIllegal c (s.withInbox rest) = .next t) := by
  unfold step at h
  cases hin : s.inbox with
  | nil =>
    rw [fetch_idle s hin] at h
    injection h with h
    exact .inl ⟨rfl, h.symm⟩
  | cons x rest =>
    right
    cases x with
    | hardReset =>
      rw [fetch_hardReset s rest hin] at h
      injection h with h
      exact .inl ⟨rest, rfl, h.symm⟩
    | command c =>
      right
      cases hd : decode c with
      | ok i =>
        rw [fetch_command s c i rest hin hd] at h
        exact .inl ⟨c, rest, i, rfl, hd, h⟩
      | error e =>
        rw [fetch_illegal s c e rest hin hd] at h
        exact .inr ⟨c, rest, e, rfl, hd, h⟩

end Sys2Proof.Machine
end

