-- ==== Sys2Proof/Laws/Commands.lean ====
section
/-! SUPPORT. What the operations of the components can do, said once: the bank fold, the line encoder, the packers, the
distributor and the modulator. -/

namespace Sys2Proof.Machine

/-! ### GF engine and parity banks -/

theorem modexp_lt (e : Nat) : modexp e < 255 := Nat.mod_lt e (by decide)

theorem modexp_of_lt (e : Nat) (h : e < 255) : modexp e = e := Nat.mod_eq_of_lt h

theorem accumulateFrom_getElem (P : Params) (fb : Byte) (xs : List Byte) (k m : Nat)
    (h : m < (accumulateFrom P fb k xs).length) :
    (accumulateFrom P fb k xs)[m] =
      (xs[m]'(by rw [accumulateFrom_length] at h; exact h)) ^^^ tap P fb (k + m) := by
  induction xs generalizing k m with
  | nil => simp [accumulateFrom] at h
  | cons x xs ih =>
    cases m with
    | zero => rfl
    | succ m =>
      simp only [accumulateFrom, List.getElem_cons_succ]
      rw [ih]
      congr 2
      omega

/-- A fold read by byte is `foldBytes` read by byte. -/
theorem rsFold_getElem_list (P : Params) (par : Vector Byte 32) (b : Byte) (k : Nat) (h : k < 32) :
    (rsFold P par b)[k] = (foldBytes P par.toList b)[k]'(by rw [foldBytes_length]; exact h) := by
  unfold rsFold
  rw [Vector.getElem_mk, List.getElem_toArray]

/-- The last byte of a fold is the antilog of the feedback (41 R64). -/
theorem rsFold_last (P : Params) (par : Vector Byte 32) (b : Byte) :
    (rsFold P par b)[31] = P.alog (P.log (b ^^^ par[0])) := by
  have hhead : par.toList.headD 0 = par[0] := by
    rw [List.headD_eq_head?_getD, List.head?_eq_getElem?]; simp
  rw [rsFold_getElem_list P par b 31 (by omega)]
  unfold foldBytes
  simp only [hhead]
  split
  · rw [List.getElem_append_right (by simp)]; simp
  · rw [List.getElem_append_right (by simp [accumulateFrom_length])]; simp [accumulateFrom_length]

/-- The other bytes of a fold: the next byte of the bank, with the accumulate step unless the feedback is the
sentinel (41 R64). -/
theorem rsFold_getElem (P : Params) (par : Vector Byte 32) (b : Byte) (k : Nat) (h : k < 31) :
    (rsFold P par b)[k] =
      if P.log (b ^^^ par[0]) = Config.sentinel then par[k + 1]
      else par[k + 1] ^^^ tap P (P.log (b ^^^ par[0])) (k + 1) := by
  have hhead : par.toList.headD 0 = par[0] := by
    rw [List.headD_eq_head?_getD, List.head?_eq_getElem?]; simp
  rw [rsFold_getElem_list P par b k (by omega)]
  unfold foldBytes
  simp only [hhead]
  by_cases hfb : P.log (b ^^^ par[0]) = Config.sentinel
  · simp only [hfb, if_true]
    rw [List.getElem_append_left (by simp; omega)]
    simp
  · simp only [hfb, if_false]
    rw [List.getElem_append_left (by simp [accumulateFrom_length]; omega), accumulateFrom_getElem]
    simp [Nat.add_comm]

/-! ### Line encoder -/

theorem encodeBytes_length (P : Params) (rd : Disparity) (bs : List Byte) :
    (encodeBytes P rd bs).1.length = bs.length := by
  induction bs generalizing rd with
  | nil => rfl
  | cons b bs ih => simp [encodeBytes, ih]

theorem encodeBytes_append (P : Params) (rd : Disparity) (xs ys : List Byte) :
    encodeBytes P rd (xs ++ ys) =
      ((encodeBytes P rd xs).1 ++ (encodeBytes P (encodeBytes P rd xs).2 ys).1,
        (encodeBytes P (encodeBytes P rd xs).2 ys).2) := by
  induction xs generalizing rd with
  | nil => rfl
  | cons x xs ih => simp [encodeBytes, ih]

/-! ### Packers -/

theorem read_packA (pay : Buf 8) (i : Nat) (v : BitVec 12) (j : Nat) :
    Buf.read (packA pay i v) j =
      if i + 1 = j then (Buf.read pay (i + 1)).extractLsb' 4 4 ++ v.extractLsb' 8 4
      else if i = j then v.extractLsb' 0 8 else Buf.read pay j := by
  simp [packA, Buf.read_write]

theorem read_packB (pay : Buf 8) (i : Nat) (v : BitVec 12) (j : Nat) :
    Buf.read (packB pay i v) j =
      if i + 1 = j then v.extractLsb' 4 8
      else if i = j then v.extractLsb' 0 4 ++ (Buf.read pay i).extractLsb' 0 4 else Buf.read pay j := by
  simp [packB, Buf.read_write]

theorem packedHeader_length (c : Cfg) : (packedHeader c).length = 6 := rfl

/-! ### Distributor -/

theorem distribute_bytes_length (P : Params) (f : Nat → Byte) (slots : List (Nat × Nat)) (k : Nat)
    (bs : Banks) : (distribute P f slots k bs).2.length = slots.length := by
  induction slots generalizing k bs with
  | nil => rfl
  | cons a slots ih => simp [distribute, ih]

/-- The written-byte sequence is the frame's bytes in order, whatever the slots are. -/
theorem distribute_bytes (P : Params) (f : Nat → Byte) (slots : List (Nat × Nat)) (k : Nat) (bs : Banks) :
    (distribute P f slots k bs).2 = (List.range slots.length).map (fun m => f (k + m)) := by
  induction slots generalizing k bs with
  | nil => rfl
  | cons a slots ih =>
    simp only [distribute, ih, List.length_cons, List.range_succ_eq_map, List.map_cons, List.map_map]
    congr 1
    apply List.map_congr_left
    intro m _
    show f (k + 1 + m) = f (k + (m + 1))
    congr 1
    omega

/-! ### Modulator -/

theorem emit_ctr (f : Nat → Int) (q : Nat) (m : Run) : (emit f q m).ctr = m.ctr + q := by
  induction q generalizing m with
  | zero => rfl
  | succ q ih => rw [emit, ih]; simp only; omega

theorem emit_length (f : Nat → Int) (q : Nat) (m : Run) :
    (emit f q m).out.length = m.out.length + q := by
  induction q generalizing m with
  | zero => rfl
  | succ q ih => rw [emit, ih]; simp only [List.length_cons]; omega

theorem emit_phase (f : Nat → Int) (q : Nat) (m : Run) : (emit f q m).phase = m.phase := by
  induction q generalizing m with
  | zero => rfl
  | succ q ih => rw [emit, ih]

theorem emit_rev (f : Nat → Int) (q : Nat) (m : Run) : (emit f q m).rev = m.rev := by
  induction q generalizing m with
  | zero => rfl
  | succ q ih => rw [emit, ih]

theorem attenuate_length (P : Params) (S j : Nat) (xs : List Sample) :
    (attenuate P S j xs).length = xs.length := by
  induction xs generalizing j with
  | nil => rfl
  | cons x xs ih => unfold attenuate; split <;> simp [ih]

/-- Edge smoothing, sample by sample: the sample at distance `j + k` is ramped when the distance is not above the
smoothing length, and is left as it was otherwise (45 R99). -/
theorem attenuate_getElem? (P : Params) (S j : Nat) (xs : List Sample) (k : Nat) :
    (attenuate P S j xs)[k]? =
      xs[k]?.map (fun x => if j + k ≤ S then toSample (P.ramp x.toInt (j + k) S) else x) := by
  induction xs generalizing j k with
  | nil => simp [attenuate]
  | cons x xs ih =>
    by_cases hj : j ≤ S
    · cases k with
      | zero => simp [attenuate, hj]
      | succ k => simp [attenuate, hj, ih, Nat.add_assoc, Nat.add_comm 1 k]
    · have hk : ¬ j + k ≤ S := by omega
      simp [attenuate, hj, hk]

end Sys2Proof.Machine
end

