-- ==== Sys2Proof/Laws/PerInstr.lean ====
section
/-! SUPPORT. Facts about each command as syntax: the opcode byte of its word is the one the opcode map gives its row
(spec 30 R45, R49). -/

namespace Sys2Proof.Laws

/-- The opcode of a command's row (30 R49). -/
def opcodeOfRow : Instr → Byte
  | .nop => 0x00
  | .cfgRd _ => 0x01
  | .cfgWr _ _ => 0x02
  | .gfLog _ => 0x10
  | .gfAlog _ => 0x11
  | .gfModexp _ => 0x12
  | .rsReset _ => 0x20
  | .rsUpdate _ _ => 0x21
  | .rsRd _ _ => 0x22
  | .encEof => 0x30
  | .enc _ => 0x30
  | .hdrWr _ _ => 0x40
  | .hdrRd _ => 0x41
  | .payWr _ _ => 0x42
  | .payRd _ => 0x43
  | .hdrPack => 0x44
  | .payPackA _ _ => 0x45
  | .payPackB _ _ => 0x46
  | .bufClr => 0x47
  | .frameEnc => 0x48
  | .wbRd _ => 0x49
  | .symBuild => 0x50
  | .symRd _ => 0x51
  | .modRun => 0x60
  | .smpRd _ => 0x61
  | .smpRdb _ => 0x62

/-- A word whose bits 31:24 are those of `op` has the opcode `op`. -/
theorem opcodeOf_of_bits (w : Word) (op : Byte) (h : ∀ k, k < 8 → w.getLsbD (24 + k) = op.getLsbD k) :
    opcodeOf w = op := by
  apply BitVec.eq_of_getLsbD_eq
  intro k hk
  simpa [opcodeOf, BitVec.getLsbD_extractLsb', hk] using h k hk

/-- The opcode byte of the encoded word is its row's. -/
def EncodedOpcode.Statement (i : Instr) : Prop := opcodeOf (encode i) = opcodeOfRow i

theorem EncodedOpcode.nop : EncodedOpcode.Statement .nop := by
  unfold EncodedOpcode.Statement
  decide

theorem EncodedOpcode.cfgRd (reg : BitVec 8) : EncodedOpcode.Statement (.cfgRd reg) := by
  refine opcodeOf_of_bits _ _ fun k hk => ?_
  interval_cases k <;> simp only [encode, BitVec.getLsbD_append] <;> rfl

theorem EncodedOpcode.cfgWr (reg : BitVec 8) (val : BitVec 16) : EncodedOpcode.Statement (.cfgWr reg val) := by
  refine opcodeOf_of_bits _ _ fun k hk => ?_
  interval_cases k <;> simp only [encode, BitVec.getLsbD_append] <;> rfl

theorem EncodedOpcode.gfLog (v : BitVec 16) : EncodedOpcode.Statement (.gfLog v) := by
  refine opcodeOf_of_bits _ _ fun k hk => ?_
  interval_cases k <;> simp only [encode, BitVec.getLsbD_append] <;> rfl

theorem EncodedOpcode.gfAlog (v : BitVec 16) : EncodedOpcode.Statement (.gfAlog v) := by
  refine opcodeOf_of_bits _ _ fun k hk => ?_
  interval_cases k <;> simp only [encode, BitVec.getLsbD_append] <;> rfl

theorem EncodedOpcode.gfModexp (v : BitVec 16) : EncodedOpcode.Statement (.gfModexp v) := by
  refine opcodeOf_of_bits _ _ fun k hk => ?_
  interval_cases k <;> simp only [encode, BitVec.getLsbD_append] <;> rfl

theorem EncodedOpcode.rsReset (b : BitVec 3) : EncodedOpcode.Statement (.rsReset b) := by
  refine opcodeOf_of_bits _ _ fun k hk => ?_
  interval_cases k <;> simp only [encode, BitVec.getLsbD_append] <;> rfl

theorem EncodedOpcode.rsUpdate (b : BitVec 3) (v : BitVec 16) : EncodedOpcode.Statement (.rsUpdate b v) := by
  refine opcodeOf_of_bits _ _ fun k hk => ?_
  interval_cases k <;> simp only [encode, BitVec.getLsbD_append] <;> rfl

theorem EncodedOpcode.rsRd (b : BitVec 3) (i : BitVec 5) : EncodedOpcode.Statement (.rsRd b i) := by
  refine opcodeOf_of_bits _ _ fun k hk => ?_
  interval_cases k <;> simp only [encode, BitVec.getLsbD_append] <;> rfl

theorem EncodedOpcode.encEof : EncodedOpcode.Statement .encEof := by
  unfold EncodedOpcode.Statement
  decide

theorem EncodedOpcode.enc (v : BitVec 16) : EncodedOpcode.Statement (.enc v) := by
  refine opcodeOf_of_bits _ _ fun k hk => ?_
  interval_cases k <;> simp only [encode, BitVec.getLsbD_append] <;> rfl

theorem EncodedOpcode.hdrWr (i : BitVec 12) (b : BitVec 8) : EncodedOpcode.Statement (.hdrWr i b) := by
  refine opcodeOf_of_bits _ _ fun k hk => ?_
  interval_cases k <;> simp only [encode, BitVec.getLsbD_append] <;> rfl

theorem EncodedOpcode.hdrRd (i : BitVec 24) : EncodedOpcode.Statement (.hdrRd i) := by
  refine opcodeOf_of_bits _ _ fun k hk => ?_
  interval_cases k <;> simp only [encode, BitVec.getLsbD_append] <;> rfl

theorem EncodedOpcode.payWr (i : BitVec 12) (b : BitVec 8) : EncodedOpcode.Statement (.payWr i b) := by
  refine opcodeOf_of_bits _ _ fun k hk => ?_
  interval_cases k <;> simp only [encode, BitVec.getLsbD_append] <;> rfl

theorem EncodedOpcode.payRd (i : BitVec 24) : EncodedOpcode.Statement (.payRd i) := by
  refine opcodeOf_of_bits _ _ fun k hk => ?_
  interval_cases k <;> simp only [encode, BitVec.getLsbD_append] <;> rfl

theorem EncodedOpcode.hdrPack : EncodedOpcode.Statement .hdrPack := by
  unfold EncodedOpcode.Statement
  decide

theorem EncodedOpcode.payPackA (i v : BitVec 12) : EncodedOpcode.Statement (.payPackA i v) := by
  refine opcodeOf_of_bits _ _ fun k hk => ?_
  interval_cases k <;> simp only [encode, BitVec.getLsbD_append] <;> rfl

theorem EncodedOpcode.payPackB (i v : BitVec 12) : EncodedOpcode.Statement (.payPackB i v) := by
  refine opcodeOf_of_bits _ _ fun k hk => ?_
  interval_cases k <;> simp only [encode, BitVec.getLsbD_append] <;> rfl

theorem EncodedOpcode.bufClr : EncodedOpcode.Statement .bufClr := by
  unfold EncodedOpcode.Statement
  decide

theorem EncodedOpcode.frameEnc : EncodedOpcode.Statement .frameEnc := by
  unfold EncodedOpcode.Statement
  decide

theorem EncodedOpcode.wbRd (i : BitVec 24) : EncodedOpcode.Statement (.wbRd i) := by
  refine opcodeOf_of_bits _ _ fun k hk => ?_
  interval_cases k <;> simp only [encode, BitVec.getLsbD_append] <;> rfl

theorem EncodedOpcode.symBuild : EncodedOpcode.Statement .symBuild := by
  unfold EncodedOpcode.Statement
  decide

theorem EncodedOpcode.symRd (i : BitVec 24) : EncodedOpcode.Statement (.symRd i) := by
  refine opcodeOf_of_bits _ _ fun k hk => ?_
  interval_cases k <;> simp only [encode, BitVec.getLsbD_append] <;> rfl

theorem EncodedOpcode.modRun : EncodedOpcode.Statement .modRun := by
  unfold EncodedOpcode.Statement
  decide

theorem EncodedOpcode.smpRd (i : BitVec 24) : EncodedOpcode.Statement (.smpRd i) := by
  refine opcodeOf_of_bits _ _ fun k hk => ?_
  interval_cases k <;> simp only [encode, BitVec.getLsbD_append] <;> rfl

theorem EncodedOpcode.smpRdb (i : BitVec 24) : EncodedOpcode.Statement (.smpRdb i) := by
  refine opcodeOf_of_bits _ _ fun k hk => ?_
  interval_cases k <;> simp only [encode, BitVec.getLsbD_append] <;> rfl

end Sys2Proof.Laws
end

