-- ==== Sys2Proof/Tests/Slice0.lean ====
section
/-! SUPPORT. Tests. Expected values are the spec's own: the words of spec 95 V-SYS-3 and of the formats of 30 R46 and
the opcodes of 30 R49, the vectors V-… of spec 95 section 2 and the programs P1 to P6 of section 3, each named at its
test. Then, for every obligation with hypotheses, a witness that meets them. -/

namespace Sys2Proof.Tests

open Sys2Proof.Machine

/-! ### Helpers -/

/-- Whether a word decodes to this command. -/
def reads (c : Word) (i : Instr) : Bool :=
  match decode c with
  | .ok j => j == i
  | .error _ => false

/-- Whether a word is no command. -/
def isIllegal (c : Word) : Bool :=
  match decode c with
  | .ok _ => false
  | .error _ => true

/-- Whether an outcome is a next state. -/
def runs (o : Host.Outcome State Fault Refusal) : Bool :=
  match o with
  | .next _ => true
  | .fault _ => false
  | .refused _ => false

/-- The next state of an outcome, the reset state for a stop. -/
def after (o : Host.Outcome State Fault Refusal) : State :=
  match o with
  | .next t => t
  | .fault _ => State.reset
  | .refused _ => State.reset

/-- The response of an outcome. -/
def answered (o : Host.Outcome State Fault Refusal) : Option Word := (after o).response

/-- An outcome that is a next state is the next state of that outcome. -/
theorem eq_next_after (o : Host.Outcome State Fault Refusal) (h : runs o = true) : o = .next (after o) := by
  cases o with
  | next t => rfl
  | fault r => exact absurd h (by simp [runs])
  | refused r => exact absurd h (by simp [runs])

/-- The reset state with its registers changed. -/
def withRegs (f : Cfg → Cfg) : State := { State.reset with cfg := f Cfg.reset }

/-- The reset state with bank `n` replaced. -/
def withBank (n : Nat) (k : Bank) : State := { State.reset with banks := putBank State.reset.banks n k }

/-- The state of P4 after step 1. -/
def faulted : State :=
  { State.reset with fault := true, faultCode := 3, faultOp := 0x21, faultInfo := 0x0041 }

/-- The registers of P6 before FRAME_ENC. -/
def smallest : State :=
  withRegs (fun c => { c with cols := 1, headerLen := 0, payloadLen := 0, skipEn := 1 })

/-- P6 after FRAME_ENC. -/
def framed : State := after (exec .frameEnc smallest)

/-- The registers and buffers of V-FR-4. -/
def wrapped : State :=
  { withRegs (fun c => { c with nSf := 3, cols := 3, headerLen := 2, payloadLen := 2 }) with
    hdr := [(0, 0xA0), (1, 0xA1)], pay := [(0, 0xB0), (1, 0xB1)] }

/-- V-FR-4 after FRAME_ENC. -/
def wrappedFrame : State := after (exec .frameEnc wrapped)

/-- A symbol stream of `n` zero symbols in a modulation, at `spb` samples a bit. -/
def stream (mode : BitVec 2) (n : Nat) (spb : Half) : State :=
  { withRegs (fun c => { c with mode := mode, syncBits := 8, syncWordLo := 0x00A5, spb := spb }) with
    symCount := n, symValid := true }

/-- Two samples, -1000 and 1000 (P3 steps 19 to 24 read such samples). -/
def sampled : State := { State.reset with smp := [(0, 0xFC18), (1, 0x03E8)], smpCount := 2, smpValid := true }

/-! ### Well-formedness -/

/-- ENC does not carry the marker, whose word is the row ENC.EOF's (30 R49). -/
theorem test_wf_refuses_enc_of_the_marker : (Instr.enc 0xFFFF).wf = false := by decide

theorem test_wf_accepts_enc_next_to_the_marker : (Instr.enc 0xFFFE).wf = true ∧ Instr.encEof.wf = true := by decide

/-! ### Decoding, one word written out for every constructor -/

theorem test_decode_system :
    reads 0b00000000000000000000000000000000 .nop ∧
    reads 0b00000001000101110000000000000000 (.cfgRd 0x17) ∧
    reads 0b00000010000001110000000110111000 (.cfgWr 0x07 440) := by decide

theorem test_decode_gf :
    reads 0b00010000000000000000000010000111 (.gfLog 0x87) ∧
    reads 0b00010001000000000000000011111110 (.gfAlog 254) ∧
    reads 0b00010010000000000000000111111101 (.gfModexp 509) := by decide

theorem test_decode_rs :
    reads 0b00100000000001010000000000000000 (.rsReset 5) ∧
    reads 0b00100001000001010000000001000001 (.rsUpdate 5 0x41) ∧
    reads 0b00100010000001010000000000010011 (.rsRd 5 19) := by decide

theorem test_decode_line :
    reads 0b00110000000000001111111111111111 .encEof ∧
    reads 0b00110000000000001111111111111110 (.enc 0xFFFE) := by decide

theorem test_decode_frame_buffers :
    reads 0b01000000000000000000010100110000 (.hdrWr 5 0x30) ∧
    reads 0b01000001000000000000000000000101 (.hdrRd 5) ∧
    reads 0b01000010000001111111111111101110 (.payWr 2047 0xEE) ∧
    reads 0b01000011000000000000011111111111 (.payRd 2047) ∧
    reads 0b01000111000000000000000000000000 .bufClr := by decide

theorem test_decode_packers_and_frame :
    reads 0b01000100000000000000000000000000 .hdrPack ∧
    reads 0b01000101000000000011101010111100 (.payPackA 3 0xABC) ∧
    reads 0b01000110000000000001110111101111 (.payPackB 1 0xDEF) ∧
    reads 0b01001000000000000000000000000000 .frameEnc ∧
    reads 0b01001001000000000000000000001000 (.wbRd 8) := by decide

theorem test_decode_serializer :
    reads 0b01010000000000000000000000000000 .symBuild ∧
    reads 0b01010001000000000000000111111101 (.symRd 509) := by decide

theorem test_decode_modulator :
    reads 0b01100000000000000000000000000000 .modRun ∧
    reads 0b01100001100000000000000000000011 (.smpRd 0x800003) ∧
    reads 0b01100010000000000000000000000111 (.smpRdb 7) := by decide

/-- The illegal words of V-SYS-3. -/
theorem test_illegal_words :
    (([0x00000001, 0x01000001, 0x0105FFFF, 0x03000000, 0x10010000, 0x20080000, 0x20000001, 0x22000020, 0x3001FFFF,
      0x40100000, 0x44000001, 0x4A000000, 0x50000100, 0x63000000, 0xFFFFFFFF] : List Word).all isIllegal) = true := by
  decide

/-- The widest legal words of V-SYS-3. -/
theorem test_widest_words :
    reads 0x02FFFFFF (.cfgWr 0xFF 0xFFFF) ∧ reads 0x2107FFFF (.rsUpdate 7 0xFFFF) ∧
    reads 0x2207001F (.rsRd 7 31) ∧ reads 0x400FFFFF (.hdrWr 0xFFF 0xFF) ∧
    reads 0x41FFFFFF (.hdrRd 0xFFFFFF) ∧ reads 0x45FFFFFF (.payPackA 0xFFF 0xFFF) := by decide

/-- 30 R52, R53. -/
theorem test_assembler_syntax :
    (Instr.rsUpdate 0 0x41).text = "RS_UPDATE 0, 65" ∧ Instr.encEof.text = "ENC.EOF" ∧
      set32SyncWord 0x12345678 = [.cfgWr 0x11 0x5678, .cfgWr 0x12 0x1234] ∧
      set32HdrUptime 0x1FF002A = [.cfgWr 0x0D 0x002A, .cfgWr 0x0E 0x01FF] := by decide

/-! ### One step of the machine -/

/-- P1 step 1, presented at the port. -/
theorem test_step_runs_a_presented_word :
    answered (step (State.reset.withFetchWord 32 0x10000002)) = some 0x00000001 := by decide

/-- P4 step 5: RS_RESET is refused while FAULT = 1. -/
theorem test_step_while_faulted :
    after (step (faulted.withFetchWord 32 0x20000000)) =
      { faulted with response := some 0x05000000 } := by decide

/-- 30 R50 and 60 R116: an illegal word leaves its opcode byte and its low bits in the record. -/
theorem test_step_illegal_word :
    after (step (State.reset.withFetchWord 32 0x63001234)) =
      { State.reset with
        fault := true, faultCode := 1, faultOp := 0x63, faultInfo := 0x1234,
        response := some 0x01000000 } := by decide

/-! ### System commands -/

/-- P4 step 7. -/
theorem test_nop_while_faulted :
    after (exec .nop faulted) = { faulted with response := some 0x00000000 } := by decide

/-- P4 step 9, and the STATUS of the state of P4 step 2. -/
theorem test_cfg_rd_fault_code :
    answered (exec (.cfgRd 0x01) faulted) = some 0x00002103 ∧
      answered (exec (.cfgRd 0x00) faulted) = some 0x00000001 := by decide

/-- P4 step 8. -/
theorem test_cfg_rd_unassigned :
    after (exec (.cfgRd 0x1F) faulted) = { faulted with response := some 0x02000000 } := by decide

/-- P3 step 2, the widest legal value of a field. -/
theorem test_cfg_wr_payload_len :
    (after (exec (.cfgWr 0x07 2048) State.reset)).cfg = { Cfg.reset with payloadLen := 2048 } := by decide

/-- V-SYS-2: N_SF has the legal values 1 to 8. -/
theorem test_cfg_wr_n_sf_9 :
    after (exec (.cfgWr 0x04 9) State.reset) =
      { State.reset with
        fault := true, faultCode := 2, faultOp := 0x02, faultInfo := 9, response := some 0x02000000 } := by
  decide

/-! ### GF engine -/

/-- V-GF-1a, V-GF-1d, V-GF-1e. -/
theorem test_gf_log :
    answered (exec (.gfLog 0) State.reset) = some 0xFF ∧ answered (exec (.gfLog 0x87) State.reset) = some 8 ∧
      answered (exec (.gfLog 0xFF) State.reset) = some 183 := by decide

/-- V-GF-1f. -/
theorem test_gf_log_no_byte : answered (exec (.gfLog 0x100) State.reset) = some 0x02000000 := by decide

/-- V-GF-2c, V-GF-2d, V-GF-2e. -/
theorem test_gf_alog :
    answered (exec (.gfAlog 8) State.reset) = some 0x87 ∧ answered (exec (.gfAlog 254) State.reset) = some 0xC3 ∧
      answered (exec (.gfAlog 255) State.reset) = some 0 := by decide

/-- V-GF-3c, V-GF-3e, V-GF-3i. -/
theorem test_gf_modexp :
    answered (exec (.gfModexp 255) State.reset) = some 0 ∧
      answered (exec (.gfModexp 300) State.reset) = some 45 ∧
      answered (exec (.gfModexp 65534) State.reset) = some 254 := by decide

/-- V-GF-5. -/
theorem test_field_mul :
    fieldMul machineParams 0x02 0x80 = 0x87 ∧ fieldMul machineParams 0x02 0xC3 = 0x01 ∧
      fieldMul machineParams 0x87 0x87 = 0x6F := by decide

/-! ### Reed-Solomon encoder -/

/-- V-RS-15: the second reset of a used bank. -/
theorem test_rs_reset :
    bankOf (after (exec (.rsReset 1) (withBank 1 ⟨true, 1, Vector.replicate 32 7⟩))).banks 1 =
      ⟨true, 0, Vector.replicate 32 0⟩ := by decide

/-- V-RS-3, where the exponents reach 255. -/
theorem test_rs_update_fold :
    (bankOf (after (exec (.rsUpdate 0 0x40) (withBank 0 freshBank))).banks 0).par.toList =
      [0x01, 0x2B, 0x4F, 0x95, 0x1B, 0x4E, 0x04, 0x30, 0x57, 0x89, 0xA4, 0x3F, 0x4F, 0xD9, 0xAD, 0xA5,
       0xAD, 0xD9, 0x4F, 0x3F, 0xA4, 0x89, 0x57, 0x30, 0x04, 0x4E, 0x1B, 0x95, 0x4F, 0x2B, 0x01, 0x40] := by
  decide

/-- V-RS-5: the parity of 01 02 03. -/
theorem test_parity_of_three_bytes :
    (parityOf machineParams [1, 2, 3]).toList =
      [0x8E, 0x50, 0xB6, 0x70, 0x3C, 0x77, 0xBA, 0x8A, 0x5E, 0xF2, 0xC6, 0x38, 0xA6, 0x04, 0xA0, 0xF9,
       0xA3, 0x92, 0x50, 0xB9, 0x24, 0x69, 0x85, 0x1E, 0xA1, 0xB9, 0xF8, 0xC2, 0xB8, 0xBA, 0x48, 0xD5] := by
  decide

/-- V-RS-10. -/
theorem test_rs_update_before_reset :
    after (exec (.rsUpdate 0 0x41) State.reset) = { faulted with response := some 0x03000000 } := by decide

/-- P1 step 8, on the bank V-RS-2 leaves: PAR[15] = 71. -/
theorem test_rs_rd :
    answered (exec (.rsRd 0 15) (after (exec (.rsUpdate 0 1) (withBank 0 freshBank)))) = some 0x71 := by
  decide

/-- V-RS-11. -/
theorem test_rs_rd_inactive : answered (exec (.rsRd 3 0) State.reset) = some 0x03000000 := by decide

/-! ### Line encoder -/

/-- V-ENC-1 row EB from positive disparity, where the alternate row is used. -/
theorem test_enc_alternate_row :
    answered (exec (.enc 0xEB) { State.reset with rd := .pos }) = some 0x348 ∧
      (after (exec (.enc 0xEB) { State.reset with rd := .pos })).rd = .neg := by decide

/-- V-ENC-7. -/
theorem test_enc_no_byte :
    after (exec (.enc 0xFFFE) State.reset) =
      { State.reset with
        fault := true, faultCode := 2, faultOp := 0x30, faultInfo := 0xFFFE,
        response := some 0x02000000 } := by decide

/-- V-ENC-5. -/
theorem test_enc_eof :
    after (exec .encEof State.reset) = { State.reset with rd := .pos, response := some 0x0FA } ∧
      answered (exec .encEof { State.reset with rd := .pos }) = some 0x305 := by decide

/-! ### Frame assembler -/

/-- V-FR-8. -/
theorem test_hdr_wr :
    (after (exec (.hdrWr 5 0x30) State.reset)).hdr = [(5, 0x30)] ∧
      answered (exec (.hdrWr 6 0) State.reset) = some 0x02000000 := by decide

/-- V-FR-8. -/
theorem test_hdr_rd :
    answered (exec (.hdrRd 5) { State.reset with hdr := [(5, 0x30)] }) = some 0x30 ∧
      answered (exec (.hdrRd 6) State.reset) = some 0x02000000 := by decide

/-- V-FR-8. -/
theorem test_pay_wr :
    (after (exec (.payWr 2047 0xEE) State.reset)).pay = [(2047, 0xEE)] ∧
      answered (exec (.payWr 2048 0) State.reset) = some 0x02000000 := by decide

/-- V-FR-8. -/
theorem test_pay_rd :
    answered (exec (.payRd 2047) { State.reset with pay := [(2047, 0xEE)] }) = some 0xEE ∧
      answered (exec (.payRd 0x000800) State.reset) = some 0x02000000 := by decide

/-- V-FR-1. -/
theorem test_hdr_pack_fields :
    (List.range 6).map (Buf.read (after (exec .hdrPack (withRegs (fun c =>
      { c with hdrId := 1, hdrReset := 5, hdrUptimeLo := 42, hdrType := 3 })))).hdr) =
      [0x29, 0x00, 0x50, 0x01, 0x00, 0x30] := by decide

/-- V-FR-2. -/
theorem test_hdr_pack_uptime_only :
    (List.range 6).map (Buf.read (after (exec .hdrPack (withRegs (fun c =>
      { c with hdrUptimeLo := 0xFFFF, hdrUptimeHi := 0x1FF })))).hdr) =
      [0x00, 0x00, 0xF8, 0xFF, 0xFF, 0x0F] := by decide

/-- V-FR-3: from zeros, and the high nibble kept. -/
theorem test_pay_pack_a :
    (after (exec (.payPackA 0 0xABC) State.reset)).pay = [(0, 0xBC), (1, 0x0A)] ∧
      (after (exec (.payPackA 0 0) { State.reset with pay := [(1, 0xFF)] })).pay = [(1, 0xF0)] := by decide

/-- V-FR-3: on the bytes PAY_PACK_A left, and the low nibble kept. -/
theorem test_pay_pack_b :
    (after (exec (.payPackB 1 0xDEF) { State.reset with pay := [(0, 0xBC), (1, 0x0A)] })).pay =
        [(0, 0xBC), (1, 0xFA), (2, 0xDE)] ∧
      (after (exec (.payPackB 1 0) { State.reset with pay := [(1, 0xFF)] })).pay = [(1, 0x0F)] := by decide

/-- 43 R84. -/
theorem test_buf_clr :
    after (exec .bufClr wrapped) = { wrapped with hdr := [], pay := [], response := some 0 } := by decide

/-- V-FR-4: the written bytes and the count. -/
theorem test_frame_enc_wraps_the_payload :
    answered (exec .frameEnc wrapped) = some 9 ∧
      wrappedFrame.wb =
        [(0, 0xA0), (1, 0xA1), (2, 0xB0), (3, 0xB1), (4, 0xB0), (5, 0xB1), (6, 0xB0), (7, 0xB1), (8, 0xB0)] := by
  decide

/-- V-FR-4: the first and last parity bytes of the three banks. -/
theorem test_frame_enc_parities :
    ((List.range 3).map fun n => (parityByte wrappedFrame.banks n 0, parityByte wrappedFrame.banks n 31)) =
      [(0x4F, 0x50), (0xD7, 0x6A), (0x5B, 0x4C)] := by decide

/-- V-FR-8. -/
theorem test_wb_rd :
    answered (exec (.wbRd 8) wrappedFrame) = some 0xB0 ∧
      answered (exec (.wbRd 9) wrappedFrame) = some 0x02000000 ∧
      answered (exec (.wbRd 0) State.reset) = some 0x03000000 := by decide

/-! ### Serializer -/

/-- P6 step 6: 32 symbols 0x274 and the disparity unchanged. -/
theorem test_sym_build :
    answered (exec .symBuild framed) = some 32 ∧
      (after (exec .symBuild framed)).sym = (List.range 32).map (fun k => (k, 0x274)) ∧
      (after (exec .symBuild framed)).rd = .neg := by decide

/-- V-RS-16: with FRAME_VALID = 0 there is nothing to serialize. -/
theorem test_sym_build_without_a_frame : answered (exec .symBuild State.reset) = some 0x03000000 := by
  decide

/-- P6: symbol 31 is the last. -/
theorem test_sym_rd :
    answered (exec (.symRd 31) (after (exec .symBuild framed))) = some 0x274 ∧
      answered (exec (.symRd 32) (after (exec .symBuild framed))) = some 0x02000000 := by decide

/-! ### Modulator -/

/-- MOD_RUN from reset has no symbol stream, and P6 step 12 counts 656 samples. -/
theorem test_mod_run_counts :
    answered (exec .modRun State.reset) = some 0x03000000 ∧
      answered (exec .modRun (stream 1 32 2)) = some 0x290 := by decide +kernel

/-- The samples of a bit sequence under the reference waveform of spec 95, from PHASE = +1 at two samples a bit. -/
def waveform (smaller : Half) (bits : List Bool) : List Int :=
  (modulate (refWave 1000 (2 ^ 23) 2 1) { Cfg.reset with mode := 1, spb := 2, smaller := smaller } bits
    { out := [], ctr := 0, phase := .plus, rev := 0 }).out.reverse.map BitVec.toInt

/-- The bits of symbol 0x274. -/
def bits274 : List Bool := [true, false, false, true, true, true, false, true, false, false]

/-- P6, second run (SMALLER = 1), its first 36 samples, and V-MOD-4 (SMALLER = 3), its first 12: SMP[3] is ramped
twice. -/
theorem test_bpsk_samples :
    waveform 1 ([true, false, true, false, false, true, false, true] ++ bits274) =
      [1000, 500, -1000, -1000, -1000, -500, 1000, 500, -1000, -1000, -1000, -500, 1000, 1000, 1000, 1000,
       1000, 500, -1000, -500, 1000, 1000, 1000, 1000, 1000, 1000, 1000, 500, -1000, -1000, -1000, -500,
       1000, 500, -1000, -1000] ∧
    (waveform 3 ([true, true, false, false, true, false] ++ bits274)).take 12 =
      [1000, 750, 500, 187, -500, -250, 1000, 750, 500, 250, -1000, -750] := by decide

/-- P3 step 19. -/
theorem test_smp_rd : answered (exec (.smpRd 0) sampled) = some 0xFC18 := by decide

/-- P3 steps 23 and 24, the two bytes of a sample of 1000, and the byte past the end. -/
theorem test_smp_rdb :
    answered (exec (.smpRdb 2) sampled) = some 0xE8 ∧ answered (exec (.smpRdb 3) sampled) = some 0x03 ∧
      answered (exec (.smpRdb 4) sampled) = some 0x02000000 := by decide

/-! ### Witnesses: for every obligation with hypotheses, concrete states and operands that meet all of them together -/

theorem test_witness_StepRunsTheDecodedCommand :
    (State.reset.present 0x48000000).inbox = .command 0x48000000 :: [] ∧
      decode 0x48000000 = .ok .frameEnc := by decide

/-- Two kinds of illegal word, FAULT = 1 and FAULT = 0. -/
theorem test_witness_StepAnswersIllegalWords :
    (faulted.present 0x03000000).inbox = .command 0x03000000 :: [] ∧
      decode 0x03000000 = .error (.unassignedOpcode 0x03) ∧
    (State.reset.present 0x00000001).inbox = .command 0x00000001 :: [] ∧
      decode 0x00000001 = .error (.reservedBitSet 0x00) := by decide

theorem test_witness_HardResetRestoresTheResetState :
    ({ faulted with inbox := [.hardReset, .command 0] } : State).inbox = .hardReset :: [.command 0] := rfl

theorem test_witness_ResetStateHoldsTheSpecValues : (0 : Nat) < 8 ∧ (7 : Nat) < 8 := by decide

theorem test_witness_DecodeEncodeRoundTrip : (Instr.enc 0xFFFE).wf = true ∧ (Instr.cfgWr 0xFF 0).wf = true := by
  decide

theorem test_witness_EncodeDecodeRoundTrip :
    decode 0x3000FFFF = .ok .encEof ∧ decode 0x2207001F = .ok (.rsRd 7 31) := by decide

/-- Every counter at the top of its range. -/
def fullCounts : State :=
  { withBank 7 ⟨true, 223, Vector.replicate 32 0⟩ with
    wCount := 1784, frameN := 8, symCount := 2040, smpCount := 2 ^ 23, revCount := 65535 }

theorem test_witness_CfgRdReturnsStatusRegisters :
    State.reset.CountsLegal ∧ fullCounts.CountsLegal ∧
      (([0x1B, 0x1F, 0x28, 0xFF] : List Byte).all fun n =>
        decide ((0x1A < n.toNat ∧ n.toNat < 0x20) ∨ 0x28 ≤ n.toNat)) = true := by
  unfold State.CountsLegal
  decide

/-- The boundaries of the legal values of N_SF and of the writable numbers. -/
theorem test_witness_CfgWrStoresLegalValues :
    State.reset.fault = false ∧ (1 ≤ (8 : Half).toNat ∧ (8 : Half).toNat ≤ 8) ∧
      ¬(1 ≤ (9 : Half).toNat ∧ (9 : Half).toNat ≤ 8) ∧ (0x02 : Byte).toNat < 0x03 ∧ 0x14 < (0x15 : Byte).toNat := by
  decide

theorem test_witness_CfgRdReturnsWhatCfgWrStored :
    State.reset.fault = false ∧
      exec (.cfgWr 0x04 8) State.reset = .next (after (exec (.cfgWr 0x04 8) State.reset)) ∧
      (after (exec (.cfgWr 0x04 8) State.reset)).fault = false ∧
      (0x03 : Byte) ≠ 0x04 ∧ 0x03 ≤ (0x03 : Byte).toNat ∧ (0x03 : Byte).toNat ≤ 0x14 ∧
      exec (.cfgRd 0x03) State.reset = .next (State.reset.completed 0) :=
  ⟨rfl, eq_next_after _ (by decide), by decide, by decide, by decide, by decide, rfl⟩

theorem test_witness_GfLogReturnsTheExponent :
    State.reset.fault = false ∧ (255 : Half).toNat ≤ 255 ∧ 255 < (256 : Half).toNat := by decide

theorem test_witness_GfAlogReturnsTheElement :
    State.reset.fault = false ∧ (255 : Half).toNat ≤ 255 ∧ 255 < (256 : Half).toNat := by decide

theorem test_witness_GfModexpReturnsTheRemainder : State.reset.fault = false := rfl

theorem test_witness_RsResetZeroesTheBank : (withBank 7 freshBank).fault = false ∧ (6 : Nat) ≠ (7 : BitVec 3).toNat := by
  decide

/-- An empty bank and one with room for one byte more. -/
theorem test_witness_RsUpdateFoldsOneByte :
    (withBank 0 freshBank).fault = false ∧ (255 : Half).toNat ≤ 255 ∧
      (bankOf (withBank 0 freshBank).banks (0 : BitVec 3).toNat).act = true ∧
      (bankOf (withBank 0 freshBank).banks (0 : BitVec 3).toNat).cnt ≠ 223 ∧
      (bankOf (withBank 7 ⟨true, 222, Vector.replicate 32 9⟩).banks (7 : BitVec 3).toNat).act = true ∧
      (bankOf (withBank 7 ⟨true, 222, Vector.replicate 32 9⟩).banks (7 : BitVec 3).toNat).cnt ≠ 223 := by
  decide

theorem test_witness_RsCommandsRefuseTheWrongOrder :
    State.reset.fault = false ∧ 255 < (256 : Half).toNat ∧ (255 : Half).toNat ≤ 255 ∧
      (bankOf State.reset.banks (7 : BitVec 3).toNat).act = false ∧
      (withBank 0 ⟨true, 223, Vector.replicate 32 0⟩).fault = false ∧
      (bankOf (withBank 0 ⟨true, 223, Vector.replicate 32 0⟩).banks (0 : BitVec 3).toNat).act = true ∧
      (bankOf (withBank 0 ⟨true, 223, Vector.replicate 32 0⟩).banks (0 : BitVec 3).toNat).cnt = 223 := by
  decide

theorem test_witness_RsRdReturnsTheParityByte :
    (withBank 7 freshBank).fault = false ∧ (bankOf (withBank 7 freshBank).banks (7 : BitVec 3).toNat).act = true := by
  decide

/-- The default sizes and tables with the spec's reference waveform (45 R103) have the required properties. -/
theorem test_witness_ZeroBytesGiveZeroParity : (refWave 1000 (2 ^ 23) 2 1).Valid where
  nMax_range := by decide
  payMax_range := by decide
  smpMax_range := by decide
  log_zero := by decide
  log_exponent := by
    show ∀ x, x ≠ 0 → defaultLog x ≠ _
    decide
  alog_log := by
    show ∀ x, defaultAlog (defaultLog x) = x
    decide
  log_alog := by
    show ∀ e, e ≠ _ → defaultLog (defaultAlog e) = e
    decide
  alog_zero := by decide
  gen_ends := by decide
  gen_palindrome := by
    show ∀ j, j ≤ 32 → defaultGen j = defaultGen (32 - j)
    intro j hj
    interval_cases j <;> rfl
  gen_exponent := by
    show ∀ j, j ≤ 32 → defaultGen j ≠ _
    intro j hj
    interval_cases j <;> decide
  carrier_range := by
    intro n
    simp only [refWave, squareWave]
    split <;> decide
  tone_range := by
    intro b n
    cases b <;> simp only [refWave, squareWave, if_true, if_false, Bool.false_eq_true] <;> split <;> decide
  ramp_sign := by
    intro v j S _ _
    simp only [refWave]
    rcases Nat.eq_zero_or_pos (v.natAbs * j / (S + 1)) with h | h
    · left
      rw [h]
      simp
    · right
      rw [Int.sign_mul, Int.sign_sign, Int.sign_natCast_of_ne_zero (by omega), mul_one]
  ramp_shrinks := by
    intro v j S _ hj
    simp only [refWave]
    rw [Int.natAbs_mul, Int.natAbs_natCast]
    rcases eq_or_ne v 0 with rfl | h
    · simp
    · rw [Int.natAbs_sign_of_ne_zero h, one_mul]
      apply Nat.div_le_of_le_mul
      rw [Nat.mul_comm v.natAbs j]
      exact Nat.mul_le_mul_right _ (by omega)

theorem test_witness_ParityIsAdditive :
    (31 : Nat) < 32 ∧ ([1, 2, 3] : List Byte).length = ([0x10, 0x20, 0x30] : List Byte).length := by decide

theorem test_witness_CodewordVanishesAtTheGeneratorRoots : (31 : Nat) < 32 := by decide

theorem test_witness_EncReturnsTheCodeword :
    State.reset.fault = false ∧ (255 : Half).toNat ≤ 255 ∧
      (256 ≤ (256 : Half).toNat ∧ (256 : Half).toNat ≤ 65534) ∧
      (256 ≤ (65534 : Half).toNat ∧ (65534 : Half).toNat ≤ 65534) := by decide

theorem test_witness_EncEofReturnsTheCommaAndInvertsRd :
    State.reset.fault = false ∧ State.reset.rd = .neg ∧
      ({ State.reset with rd := .pos } : State).fault = false ∧
      ({ State.reset with rd := .pos } : State).rd = .pos := by decide

theorem test_witness_HdrWrWritesOneByte :
    State.reset.fault = false ∧ (5 : BitVec 12).toNat < 6 ∧ 6 ≤ (6 : BitVec 12).toNat ∧
      (4 : Nat) ≠ (5 : BitVec 12).toNat := by decide

theorem test_witness_PayWrWritesOneByte :
    State.reset.fault = false ∧ (2047 : BitVec 12).toNat < 2048 ∧ 2048 ≤ (2048 : BitVec 12).toNat ∧
      (2046 : Nat) ≠ (2047 : BitVec 12).toNat := by decide

theorem test_witness_FrameBufferReadsReturnTheByte :
    State.reset.fault = false ∧ (5 : BitVec 24).toNat < 6 ∧ 6 ≤ (6 : BitVec 24).toNat ∧
      (2047 : BitVec 24).toNat < 2048 ∧ 2048 ≤ (2048 : BitVec 24).toNat := by decide

/-- The last byte and the last symbol, and the index above them. -/
theorem test_witness_ProducedBufferReadsReturnTheElement :
    (wrappedFrame.fault = false ∧ wrappedFrame.frameValid = true ∧ (8 : BitVec 24).toNat < wrappedFrame.wCount ∧
      wrappedFrame.wCount ≤ (9 : BitVec 24).toNat) ∧
    (State.reset.fault = false ∧ State.reset.frameValid = false ∧ State.reset.symValid = false) ∧
    ((stream 0 32 1).fault = false ∧ (stream 0 32 1).symValid = true ∧
      (31 : BitVec 24).toNat < (stream 0 32 1).symCount ∧ (stream 0 32 1).symCount ≤ (32 : BitVec 24).toNat) := by
  decide

theorem test_witness_BufClrZeroesBothBuffers : wrapped.fault = false := by decide

theorem test_witness_HdrPackKeepsEveryField : State.reset.fault = false ∧ (6 : Nat) ≤ 6 := by decide

theorem test_witness_PayPackAWritesLowByteThenNibble :
    State.reset.fault = false ∧ (2046 : BitVec 12).toNat + 1 < 2048 ∧ 2048 ≤ (2047 : BitVec 12).toNat + 1 ∧
      ((2048 : Nat) ≠ (2046 : BitVec 12).toNat ∧ (2048 : Nat) ≠ (2046 : BitVec 12).toNat + 1) := by decide

theorem test_witness_PayPackBWritesNibbleThenHighByte :
    State.reset.fault = false ∧ (2046 : BitVec 12).toNat + 1 < 2048 ∧ 2048 ≤ (2047 : BitVec 12).toNat + 1 ∧
      ((2045 : Nat) ≠ (2046 : BitVec 12).toNat ∧ (2045 : Nat) ≠ (2046 : BitVec 12).toNat + 1) := by decide

/-- V-FR-3 in either order, at the highest place in the buffer. -/
theorem test_witness_PackedPairIsRecoveredInEitherOrder :
    State.reset.fault = false ∧ (2045 : BitVec 12).toNat + 2 < 2048 ∧
      (∃ t u, exec (.payPackA 2045 0xABC) State.reset = .next t ∧
        exec (.payPackB (2045 + 1) 0xDEF) t = .next u) ∧
      ∃ t u, exec (.payPackB (2045 + 1) 0xDEF) State.reset = .next t ∧
        exec (.payPackA 2045 0xABC) t = .next u :=
  ⟨rfl, by decide,
    ⟨_, _, eq_next_after _ (by decide), eq_next_after _ (by decide)⟩,
    ⟨_, _, eq_next_after _ (by decide), eq_next_after _ (by decide)⟩⟩

/-- The reset registers (no skipped slot), those of P6 (a skipped slot and no byte at all) and those of V-FR-4. -/
theorem test_witness_FrameEncWritesTheFrame :
    (State.reset.fault = false ∧ 1 = State.reset.cfg.nSf.toNat ∧ 223 = State.reset.cfg.cols.toNat ∧
      6 = State.reset.cfg.headerLen.toNat ∧ 217 = State.reset.cfg.payloadLen.toNat ∧
      0 = State.reset.cfg.skipEn.toNat ∧ 223 = 1 * 223 - 0 ∧ 1 ≤ 8 ∧ 6 + 217 ≤ 223 ∧ (6 < 223 → 217 ≠ 0)) ∧
    (smallest.fault = false ∧ 1 = smallest.cfg.nSf.toNat ∧ 1 = smallest.cfg.cols.toNat ∧
      0 = smallest.cfg.headerLen.toNat ∧ 0 = smallest.cfg.payloadLen.toNat ∧ 1 = smallest.cfg.skipEn.toNat ∧
      0 = 1 * 1 - 1 ∧ 1 ≤ 8 ∧ (smallest.cfg.skipCol.toNat < 1 ∧ smallest.cfg.skipSf.toNat < 1) ∧ 0 + 0 ≤ 0 ∧
      (0 < 0 → 0 ≠ 0)) ∧
    (wrapped.fault = false ∧ 3 = wrapped.cfg.nSf.toNat ∧ 3 = wrapped.cfg.cols.toNat ∧
      2 = wrapped.cfg.headerLen.toNat ∧ 2 = wrapped.cfg.payloadLen.toNat ∧ 0 = wrapped.cfg.skipEn.toNat ∧
      9 = 3 * 3 - 0 ∧ 3 ≤ 8 ∧ 2 + 2 ≤ 9 ∧ (2 < 9 → 2 ≠ 0)) := by decide

/-- The refusals of V-FR-6: a payload one byte too long, no payload, and a skipped slot outside the frame. -/
theorem test_witness_FrameEncRefusesInconsistentRegisters :
    ((withRegs fun c => { c with payloadLen := 218 }).fault = false ∧
      218 = (withRegs fun c => { c with payloadLen := 218 }).cfg.payloadLen.toNat ∧ 1 * 223 - 0 < 6 + 218) ∧
    ((withRegs fun c => { c with payloadLen := 0 }).fault = false ∧
      0 = (withRegs fun c => { c with payloadLen := 0 }).cfg.payloadLen.toNat ∧ 6 < 1 * 223 - 0) ∧
    ((withRegs fun c => { c with skipEn := 1, skipSf := 1 }).fault = false ∧
      1 = (withRegs fun c => { c with skipEn := 1, skipSf := 1 }).cfg.skipEn.toNat ∧
      1 ≤ (withRegs fun c => { c with skipEn := 1, skipSf := 1 }).cfg.skipSf.toNat) := by decide

/-- A frame with a skipped slot (P6) and one without (V-FR-4). -/
theorem test_witness_SubFramesFoldTheirSlots :
    (smallest.fault = false ∧ exec .frameEnc smallest = .next framed ∧ framed.fault = false ∧
      1 = smallest.cfg.nSf.toNat ∧ 1 = smallest.cfg.cols.toNat ∧ 1 ≤ 8 ∧
      0 = (if smallest.cfg.skipEn = 1 then smallest.cfg.skipCol.toNat * 1 + smallest.cfg.skipSf.toNat else 1 * 1) ∧
      0 < 1) ∧
    (wrapped.fault = false ∧ exec .frameEnc wrapped = .next wrappedFrame ∧ wrappedFrame.fault = false ∧
      3 = wrapped.cfg.nSf.toNat ∧ 3 = wrapped.cfg.cols.toNat ∧ 3 ≤ 8 ∧
      9 = (if wrapped.cfg.skipEn = 1 then wrapped.cfg.skipCol.toNat * 3 + wrapped.cfg.skipSf.toNat else 3 * 3) ∧
      2 < 3) :=
  ⟨⟨rfl, eq_next_after _ (by decide), by decide, by decide, by decide, by decide, by decide,
      by decide⟩,
    ⟨rfl, eq_next_after _ (by decide), by decide, by decide, by decide, by decide, by decide,
      by decide⟩⟩

/-- The frame of V-FR-4 (105 bytes fed), and no frame at all. -/
theorem test_witness_SymBuildSerializesTheFrame :
    wrappedFrame.fault = false ∧ wrappedFrame.frameValid = true ∧
      105 = wrappedFrame.wCount + 32 * wrappedFrame.frameN ∧
      (∃ (fed : Nat → Byte) (rdAt : Nat → Disparity),
        (∀ k, fed k = if k < wrappedFrame.wCount then Buf.read wrappedFrame.wb k
          else parityByte wrappedFrame.banks ((k - wrappedFrame.wCount) % wrappedFrame.frameN)
            ((k - wrappedFrame.wCount) / wrappedFrame.frameN)) ∧
        ∀ k, rdAt k = (List.range k).foldl (fun rd j => (defaultEncTab rd (fed j)).2) wrappedFrame.rd) ∧
      State.reset.fault = false ∧ State.reset.frameValid = false :=
  ⟨by decide, by decide, by decide, ⟨_, _, fun _ => rfl, fun _ => rfl⟩, rfl, rfl⟩

/-- As many samples as the buffer holds, no symbol stream, and more samples than it holds. -/
theorem test_witness_ModRunProducesTheCycle :
    ((stream 1 204 4096).fault = false ∧ 2 ^ 23 = cycleLength (stream 1 204 4096) * (stream 1 204 4096).cfg.spb.toNat ∧
      (stream 1 204 4096).symValid = true) ∧
    (State.reset.fault = false ∧ 10 = cycleLength State.reset * State.reset.cfg.spb.toNat ∧
      State.reset.symValid = false) ∧
    ((stream 1 204 4097).fault = false ∧ (stream 1 204 4097).symValid = true ∧
      2 ^ 23 < cycleLength (stream 1 204 4097) * (stream 1 204 4097).cfg.spb.toNat) := by decide

theorem test_witness_FskSamplesAreTones :
    (stream 0 32 2).fault = false ∧ (stream 0 32 2).symValid = true ∧ (stream 0 32 2).cfg.mode = 0 ∧
      cycleLength (stream 0 32 2) * (stream 0 32 2).cfg.spb.toNat ≤ 2 ^ 23 ∧
      exec .modRun (stream 0 32 2) = .next (after (exec .modRun (stream 0 32 2))) ∧
      655 < cycleLength (stream 0 32 2) * (stream 0 32 2).cfg.spb.toNat :=
  ⟨rfl, rfl, rfl, by decide, eq_next_after _ (by decide), by decide⟩

theorem test_witness_BpskReversesOncePerZeroBit :
    (stream 1 32 2).fault = false ∧ (stream 1 32 2).symValid = true ∧ (stream 1 32 2).cfg.mode = 1 ∧
      cycleLength (stream 1 32 2) * (stream 1 32 2).cfg.spb.toNat ≤ 2 ^ 23 ∧
      exec .modRun (stream 1 32 2) = .next (after (exec .modRun (stream 1 32 2))) :=
  ⟨rfl, rfl, rfl, by decide, eq_next_after _ (by decide)⟩

/-- The registers of V-MOD-4 and a stream of 32 symbols: bits 2, 3 and 5 are the first that are 0, and SMALLER = 3. -/
def smoothed : State :=
  { withRegs (fun c => { c with mode := 1, syncBits := 6, syncWordLo := 0x0032, spb := 2, smaller := 3 }) with
    symCount := 32, symValid := true }

/-- A bit whose reversal attenuates sample 1, 2 or 3 is one of bits 2 and 3. -/
theorem smoothed_bits (c k : Nat) (hc : c ≤ 3) (h1 : c < k * smoothed.cfg.spb.toNat)
    (h2 : k * smoothed.cfg.spb.toNat ≤ c + smoothed.cfg.smaller.toNat) : c < k * 2 ∧ k * 2 ≤ c + 3 ∧ k ≤ 3 := by
  have e1 : smoothed.cfg.spb.toNat = 2 := by decide
  have e2 : smoothed.cfg.smaller.toNat = 3 := by decide
  rw [e1] at h1 h2
  rw [e2] at h2
  omega

/-- Sample 3 lies within SMALLER of two reversals (V-MOD-4), samples 1 and 2 of that of bit 2 alone, at the distances 3
and 2, and sample 0 of none. -/
theorem test_witness_BpskSamplesFollowThePhase :
    smoothed.fault = false ∧ smoothed.symValid = true ∧ smoothed.cfg.mode = 1 ∧
      cycleLength smoothed * smoothed.cfg.spb.toNat ≤ 2 ^ 23 ∧
      exec .modRun smoothed = .next (after (exec .modRun smoothed)) ∧
      (∃ hard : Nat → Int, ∀ c, hard c =
        (phaseAfter smoothed.phase (zerosBefore smoothed (c / smoothed.cfg.spb.toNat + 1))).sign * carrier c) ∧
      3 < cycleLength smoothed * smoothed.cfg.spb.toNat ∧
      (attenuates smoothed 3 2 = true ∧ attenuates smoothed 3 3 = true) ∧
      (∀ c, 1 ≤ c → c ≤ 2 → 2 < cycleLength smoothed ∧ cycleBit smoothed 2 = false ∧
        c < 2 * smoothed.cfg.spb.toNat ∧ 2 * smoothed.cfg.spb.toNat ≤ c + smoothed.cfg.smaller.toNat ∧
        ∀ k, k < cycleLength smoothed → cycleBit smoothed k = false → c < k * smoothed.cfg.spb.toNat →
          k * smoothed.cfg.spb.toNat ≤ c + smoothed.cfg.smaller.toNat → k = 2) ∧
      ∀ k, k < cycleLength smoothed → cycleBit smoothed k = false → 0 < k * smoothed.cfg.spb.toNat →
        0 + smoothed.cfg.smaller.toNat < k * smoothed.cfg.spb.toNat := by
  refine ⟨rfl, rfl, rfl, by decide, eq_next_after _ (by decide), ⟨_, fun _ => rfl⟩, by decide, by decide, ?_, ?_⟩
  · intro c h1 h2
    refine ⟨by decide, by decide, ?_, ?_, ?_⟩
    · exact lt_of_le_of_lt h2 (by decide)
    · exact le_trans (by decide : 2 * smoothed.cfg.spb.toNat ≤ 1 + smoothed.cfg.smaller.toNat) (by omega)
    · intro k _ hk h3 h4
      have := smoothed_bits c k (by omega) h3 h4
      have : k ≠ 1 := fun e => absurd (e ▸ hk) (by decide)
      omega
  · intro k _ hk h3
    by_contra h4
    have := smoothed_bits 0 k (by omega) h3 (by omega)
    have e : k = 1 := by omega
    exact absurd (e ▸ hk) (by decide)

/-- Both bytes of the last sample, and the first index past the end. -/
theorem test_witness_SampleReadsAreLittleEndian :
    sampled.fault = false ∧ sampled.smpValid = true ∧ (1 : BitVec 24).toNat < sampled.smpCount ∧
      sampled.smpCount ≤ (2 : BitVec 24).toNat ∧ (State.reset.fault = false ∧ State.reset.smpValid = false) ∧
      (1 < sampled.smpCount ∧ (2 : BitVec 24).toNat = 2 * 1 ∧ (3 : BitVec 24).toNat = 2 * 1 + 1) ∧
      2 * sampled.smpCount ≤ (4 : BitVec 24).toNat := by decide

theorem test_witness_EveryCommandAnswersOneResponseWord :
    answered (exec (.rsReset 0) faulted) = some 0x05000000 ∧ (0x05000000 : Word).extractLsb' 24 8 ≠ 0 := by
  decide

/-- The first error (P4 step 1), a later one (P4 step 8) and an illegal word. -/
theorem test_witness_ErrorChangesNothingButTheRecord :
    ((State.reset.present 0x21000041).inbox = .command 0x21000041 :: [] ∧
      step (State.reset.present 0x21000041) = .next (after (step (State.reset.present 0x21000041))) ∧
      answered (step (State.reset.present 0x21000041)) = some 0x03000000 ∧
      (0x03000000 : Word).extractLsb' 24 8 ≠ 0) ∧
    ((faulted.present 0x011F0000).inbox = .command 0x011F0000 :: [] ∧
      step (faulted.present 0x011F0000) = .next (after (step (faulted.present 0x011F0000))) ∧
      answered (step (faulted.present 0x011F0000)) = some 0x02000000 ∧
      (0x02000000 : Word).extractLsb' 24 8 ≠ 0) ∧
    ((State.reset.present 0x63000000).inbox = .command 0x63000000 :: [] ∧
      step (State.reset.present 0x63000000) = .next (after (step (State.reset.present 0x63000000))) ∧
      answered (step (State.reset.present 0x63000000)) = some 0x01000000 ∧
      (0x01000000 : Word).extractLsb' 24 8 ≠ 0) :=
  ⟨⟨rfl, eq_next_after _ (by decide), by decide, by decide⟩, ⟨rfl, eq_next_after _ (by decide), by decide, by decide⟩,
    rfl, eq_next_after _ (by decide), by decide, by decide⟩

/-- P4: RS_RESET, NOP and CFG_RD of the outermost register numbers while FAULT = 1, and a step that is no reset. -/
theorem test_witness_FaultedStateServesNopAndCfgRdOnly :
    faulted.fault = true ∧ (Instr.rsReset 0 ≠ .nop ∧ ∀ n, Instr.rsReset 0 ≠ .cfgRd n) ∧
      ((0x1A : Byte).toNat ≤ 0x1A ∧ (0x20 ≤ (0x27 : Byte).toNat ∧ (0x27 : Byte).toNat ≤ 0x27)) ∧
      (∀ rest, (faulted.present 0x20000000).inbox ≠ .hardReset :: rest) ∧
      (faulted.present 0x20000000).fault = true ∧
      step (faulted.present 0x20000000) = .next (after (step (faulted.present 0x20000000))) :=
  ⟨rfl, ⟨by decide, (fun _ h => nomatch h)⟩, by decide, (fun _ h => nomatch h), rfl,
    eq_next_after _ (by decide)⟩

theorem test_witness_FaultedMachineIsFrozen :
    (faulted.present 0x01010000).fault = true ∧
      (∀ rest, (faulted.present 0x01010000).inbox ≠ .hardReset :: rest) ∧
      step (faulted.present 0x01010000) = .next (after (step (faulted.present 0x01010000))) :=
  ⟨rfl, (fun _ h => nomatch h), eq_next_after _ (by decide)⟩

theorem test_witness_StepNeverStops : State.reset.inbox = [] := rfl

theorem test_witness_ReadsHaveNoSideEffect :
    (∃ k, Instr.smpRdb 3 = .smpRdb k) ∧ exec (.smpRdb 3) sampled = .next (after (exec (.smpRdb 3) sampled)) ∧
      ∀ w, (after (exec (.smpRdb 3) sampled)).response = some w → w.extractLsb' 24 8 = 0 :=
  ⟨⟨3, rfl⟩, eq_next_after _ (by decide), by
    have h : (after (exec (.smpRdb 3) sampled)).response = some 0x00000003 := by decide
    rw [h]
    intro w hw
    cases hw
    decide⟩

/-- HDR_WR is none of the commands of the other clauses, and CFG_RD none of those of its own; a command answered with
status 0, and one answered E_FAULTED. -/
theorem test_witness_StateIsWrittenOnlyByItsCommands :
    exec (.hdrWr 5 0x30) State.reset = .next (after (exec (.hdrWr 5 0x30) State.reset)) ∧
      ((∀ b, Instr.hdrWr 5 0x30 ≠ .rsReset b) ∧ (∀ b v, Instr.hdrWr 5 0x30 ≠ .rsUpdate b v) ∧
        Instr.hdrWr 5 0x30 ≠ .frameEnc ∧ (∀ v, Instr.hdrWr 5 0x30 ≠ .enc v) ∧ Instr.hdrWr 5 0x30 ≠ .encEof ∧
        Instr.hdrWr 5 0x30 ≠ .symBuild ∧ Instr.hdrWr 5 0x30 ≠ .modRun ∧
        (∀ k b, Instr.hdrWr 5 0x30 ≠ .payWr k b) ∧ (∀ k v, Instr.hdrWr 5 0x30 ≠ .payPackA k v) ∧
        (∀ k v, Instr.hdrWr 5 0x30 ≠ .payPackB k v) ∧ Instr.hdrWr 5 0x30 ≠ .bufClr ∧
        ∀ n v, Instr.hdrWr 5 0x30 ≠ .cfgWr n v) ∧
      exec (.cfgRd 0x04) State.reset = .next (after (exec (.cfgRd 0x04) State.reset)) ∧
      ((∀ k b, Instr.cfgRd 0x04 ≠ .hdrWr k b) ∧ Instr.cfgRd 0x04 ≠ .hdrPack ∧ Instr.cfgRd 0x04 ≠ .bufClr) ∧
      (∃ w, (after (exec (.cfgRd 0x04) State.reset)).response = some w ∧ w.extractLsb' 24 8 = 0) ∧
      exec (.rsReset 0) faulted = .next (after (exec (.rsReset 0) faulted)) ∧ faulted.fault = true :=
  ⟨eq_next_after _ (by decide),
    ⟨(fun _ h => nomatch h), (fun _ _ h => nomatch h), by decide, (fun _ h => nomatch h), by decide, by decide, by decide,
      (fun _ _ h => nomatch h), (fun _ _ h => nomatch h), (fun _ _ h => nomatch h), by decide, (fun _ _ h => nomatch h)⟩,
    eq_next_after _ (by decide), ⟨(fun _ _ h => nomatch h), by decide, by decide⟩, ⟨0x00000001, by decide, by decide⟩,
    eq_next_after _ (by decide), rfl⟩

/-- A state with its buffers written, and a step that encodes a frame. -/
theorem test_witness_EveryStepKeepsTheInvariant :
    (wrapped.present 0x48000000).Inv ∧
      step (wrapped.present 0x48000000) = .next (after (step (wrapped.present 0x48000000))) :=
  ⟨by
    unfold State.Inv State.MemoryLegal State.CountsLegal State.FlagsLegal State.RecordLegal Cfg.Legal
    decide,
    eq_next_after _ (by decide)⟩

/-- The smallest valid frame (P6): no byte written, the parity of nothing in bank 0. -/
theorem test_witness_EveryStepKeepsTheFrameConsistent :
    (framed.present 0x50000000).Inv ∧ (framed.present 0x50000000).FrameConsistent ∧
      (framed.present 0x50000000).frameValid = true ∧
      step (framed.present 0x50000000) = .next (after (step (framed.present 0x50000000))) :=
  ⟨by
    unfold State.Inv State.MemoryLegal State.CountsLegal State.FlagsLegal State.RecordLegal Cfg.Legal
    decide,
    fun _ => ⟨1, 0, by decide⟩, by decide, eq_next_after _ (by decide)⟩

end Sys2Proof.Tests
end

section
/-! SUPPORT. The machine's parameters meet `Params.Valid` (O17): first the laws of each default table and of each
function of the modulator, then the theorem assembled from them. The tables' laws rest on three evaluations (LOG
undone by ALOG on every byte, GEN a palindrome, no sentinel in GEN); the other laws are deduced from these. -/

namespace Sys2Proof.Machine

/-! ### LOG and ALOG (40 R54, R55) -/

theorem defaultLog_zero : defaultLog 0 = Config.sentinel := by decide

theorem defaultAlog_zero : defaultAlog 0 = 1 := by decide

theorem defaultAlog_defaultLog : Function.LeftInverse defaultAlog defaultLog := by
  show ∀ x, defaultAlog (defaultLog x) = x
  decide

theorem defaultLog_injective : Function.Injective defaultLog := defaultAlog_defaultLog.injective

/-- An injective map of the 256 bytes takes every value, so LOG undoes ALOG too, the sentinel included. -/
theorem defaultLog_defaultAlog : Function.LeftInverse defaultLog defaultAlog :=
  defaultAlog_defaultLog.rightInverse_of_surjective (Finite.surjective_of_injective defaultLog_injective)

theorem defaultLog_eq_sentinel_iff (x : Byte) : defaultLog x = Config.sentinel ↔ x = 0 := by
  rw [← defaultLog_zero, defaultLog_injective.eq_iff]

/-! ### GEN (41 R62) -/

theorem genList_reverse : genList.reverse = genList := by decide

theorem ofNat_ne_sentinel_of_mem_genList : ∀ g ∈ genList, BitVec.ofNat 8 g ≠ Config.sentinel := by decide

theorem defaultGen_eq_getElem (j : Nat) (h : j < genList.length) : defaultGen j = BitVec.ofNat 8 genList[j] := by
  rw [defaultGen, List.getD_eq_getElem _ _ h]

theorem defaultGen_palindrome (j : Nat) (hj : j ≤ 32) : defaultGen j = defaultGen (32 - j) := by
  have hlen : genList.length = 33 := rfl
  have hmirror : genList[j] = genList[32 - j] := by
    have h := List.getElem_reverse (l := genList) (i := j) (by rw [List.length_reverse]; omega)
    simpa [genList_reverse, hlen] using h
  rw [defaultGen_eq_getElem j (by omega), defaultGen_eq_getElem (32 - j) (by omega), hmirror]

theorem defaultGen_ne_sentinel (j : Nat) (hj : j ≤ 32) : defaultGen j ≠ Config.sentinel := by
  have hlen : genList.length = 33 := rfl
  rw [defaultGen_eq_getElem j (by omega)]
  exact ofNat_ne_sentinel_of_mem_genList _ (List.getElem_mem _)

/-! ### CARRIER, TONE and RAMP, whatever the free values are (00 R9) -/

theorem carrier_bounds (n : Nat) : -32767 ≤ carrier n ∧ carrier n ≤ 32767 := by
  have := (Config.carrierChoice n).isLt
  unfold carrier
  omega

theorem tone_bounds (b : Bool) (n : Nat) : -32768 ≤ tone b n ∧ tone b n ≤ 32767 :=
  ⟨BitVec.le_toInt (Config.toneChoice b n), Int.le_of_lt_add_one BitVec.toInt_lt⟩

theorem ramp_natAbs (v : Int) (j S : Nat) : (ramp v j S).natAbs = min v.natAbs (Config.rampChoice v j S) := by
  rw [ramp, Int.natAbs_mul, Int.natAbs_natCast]
  rcases eq_or_ne v 0 with rfl | hv
  · simp
  · rw [Int.natAbs_sign_of_ne_zero hv, one_mul]

theorem ramp_natAbs_le (v : Int) (j S : Nat) : (ramp v j S).natAbs ≤ v.natAbs :=
  ramp_natAbs v j S ▸ Nat.min_le_left _ _

/-- The magnitude RAMP chooses is 0, or the product keeps the sign of the sample. -/
theorem ramp_eq_zero_or_sign_eq (v : Int) (j S : Nat) : ramp v j S = 0 ∨ (ramp v j S).sign = v.sign := by
  unfold ramp
  rcases eq_or_ne (min v.natAbs (Config.rampChoice v j S)) 0 with hzero | hpos
  · exact .inl (by rw [hzero, Nat.cast_zero, mul_zero])
  · exact .inr (by rw [Int.sign_mul, Int.sign_sign, Int.sign_natCast_of_ne_zero hpos, mul_one])

/-! ### The machine's parameters -/

/-- Settles O17, field by field from the laws of the tables and of the modulator's functions. -/
theorem machineParametersAreValid : Obligations.MachineParametersAreValid where
  nMax_range := by decide
  payMax_range := by decide
  smpMax_range := by decide
  log_zero := defaultLog_zero
  log_exponent x hx := mt (defaultLog_eq_sentinel_iff x).mp hx
  alog_log := defaultAlog_defaultLog
  log_alog e _ := defaultLog_defaultAlog e
  alog_zero := defaultAlog_zero
  gen_ends := by decide
  gen_palindrome := defaultGen_palindrome
  gen_exponent := defaultGen_ne_sentinel
  carrier_range := carrier_bounds
  tone_range := tone_bounds
  ramp_sign v j S _ _ := ramp_eq_zero_or_sign_eq v j S
  ramp_shrinks v j S _ _ := ramp_natAbs_le v j S

end Sys2Proof.Machine
end

section
/-! SUPPORT. What one command and one step can do, said once: an error is raised, or the command completes with one of
the changes of state that `Written` lists. Everything below about who writes what and about invariants goes through
these inversions. -/

namespace Sys2Proof.Machine

/-! ### Completed commands -/

/-- What command `i` may have written when it completes: `Written i s u` says that `u` is `s` with those writes, and
carries the guards that the command's rule has tested before. -/
inductive Written : Instr → State → State → Prop where
  | nothing (i : Instr) (s : State) : Written i s s
  | cfgWr {reg : Byte} {val : Half} {r : CfgReg} (s : State) (hreg : regOfNumber machineParams reg = some (.rw r))
      (hlegal : legalValue machineParams r val.toNat = true) :
      Written (.cfgWr reg val) s (s.withCfg (writeCfg s.cfg r val))
  | rsReset (b : BitVec 3) (s : State) :
      Written (.rsReset b) s (s.disturbBanks (putBank s.banks b.toNat freshBank))
  | rsUpdate (b : BitVec 3) (v : Half) (s : State) (hact : (bankOf s.banks b.toNat).act = true)
      (hcnt : (bankOf s.banks b.toNat).cnt ≠ 223) :
      Written (.rsUpdate b v) s (s.disturbBanks (rsUpdate machineParams s.banks b.toNat (lowByte v)))
  | encEof (s : State) : Written .encEof s (s.withRd s.rd.flip)
  | enc (v : Half) (rd : Disparity) (s : State) : Written (.enc v) s (s.withRd rd)
  | hdrWr {k : BitVec 12} (b : Byte) (s : State) (hk : k.toNat < 6) :
      Written (.hdrWr k b) s (s.withHdr (Buf.write s.hdr k.toNat b))
  | hdrPack (s : State) : Written .hdrPack s (s.withHdr (Buf.fill s.hdr (packedHeader s.cfg)))
  | payWr {k : BitVec 12} (b : Byte) (s : State) (hk : k.toNat < 2048) :
      Written (.payWr k b) s (s.withPay (Buf.write s.pay k.toNat b))
  | payPackA {k : BitVec 12} (v : BitVec 12) (s : State) (hk : k.toNat + 1 < 2048) :
      Written (.payPackA k v) s (s.withPay (packA s.pay k.toNat v))
  | payPackB {k : BitVec 12} (v : BitVec 12) (s : State) (hk : k.toNat + 1 < 2048) :
      Written (.payPackB k v) s (s.withPay (packB s.pay k.toNat v))
  | bufClr (s : State) : Written .bufClr s ((s.withHdr []).withPay [])
  | frameEnc {g : Geometry} {done : Banks × List Byte} (s : State) (hg : g = geometry s.cfg)
      (hfit : g.inconsistent = false)
      (hdone : done = distribute machineParams (frameByte g s.hdr s.pay) g.slots 0 (resetBanks s.banks g.n)) :
      Written .frameEnc s (((s.withBanks done.1).withFrame (Buf.fill s.wb done.2) g.w g.n).withFrameValid true)
  | symBuild {built : List Symbol × Disparity} (s : State) (hvalid : s.frameValid = true)
      (hbuilt : built = encodeBytes machineParams s.rd (writtenBytes s ++ parityBytes s)) :
      Written .symBuild s ((s.withRd built.2).withSymbols (Buf.fill s.sym built.1) built.1.length)
  | modRun {m : Run} (s : State) (hvalid : s.symValid = true) (htotal : sampleTotal s ≤ 2 ^ 23)
      (hm : m = modulate machineParams s.cfg (cycleBits s) { out := [], ctr := 0, phase := s.phase, rev := 0 }) :
      Written .modRun s ((s.withSamples (Buf.fill s.smp m.out.reverse) m.ctr).withPhase m.phase m.rev)

/-- A rule's reply is one of the writes of its command, or an error other than E_FAULTED, which is the machine's to
raise (60 R115 row 1). -/
def Reply.Permitted (i : Instr) (s : State) : Reply → Prop
  | .ok (u, _) => Written i s u
  | .error e => e ≠ .faulted

section Rules

variable (s : State)

@[simp] theorem Reply.permitted_ok (i : Instr) (u : State) (v : Half) :
    Reply.Permitted i s (.ok (u, v)) ↔ Written i s u := Iff.rfl

@[simp] theorem Reply.permitted_error (i : Instr) (e : ErrKind) :
    Reply.Permitted i s (.error e) ↔ e ≠ .faulted := Iff.rfl

theorem cfgRdRule_unchanged (n : Byte) (u : State) (v : Half) (h : cfgRdRule machineParams n s = .ok (u, v)) :
    u = s := by
  unfold cfgRdRule at h
  split at h <;> cases h
  rfl

theorem cfgRdRule_permitted (n : Byte) : (cfgRdRule machineParams n s).Permitted (.cfgRd n) s := by
  unfold cfgRdRule
  split <;> simp [Written.nothing]

theorem cfgWrRule_permitted (n : Byte) (v : Half) : (cfgWrRule machineParams n v s).Permitted (.cfgWr n v) s := by
  unfold cfgWrRule
  split
  · simp
  · simp
  · next hreg =>
    split
    · next hlegal => exact .cfgWr s hreg hlegal
    · simp

theorem gfLogRule_permitted (v : Half) : (gfLogRule machineParams v s).Permitted (.gfLog v) s := by
  unfold gfLogRule
  split <;> simp [Written.nothing]

theorem gfAlogRule_permitted (v : Half) : (gfAlogRule machineParams v s).Permitted (.gfAlog v) s := by
  unfold gfAlogRule
  split <;> simp [Written.nothing]

theorem rsResetRule_permitted (b : BitVec 3) : (rsResetRule machineParams b s).Permitted (.rsReset b) s := by
  unfold rsResetRule
  split <;> simp [Written.rsReset]

theorem rsUpdateRule_permitted (b : BitVec 3) (v : Half) :
    (rsUpdateRule machineParams b v s).Permitted (.rsUpdate b v) s := by
  unfold rsUpdateRule
  split_ifs with _ _ hact hcnt
  · simp
  · simp
  · simp
  · simp
  · exact .rsUpdate b v s (by simpa using hact) hcnt

theorem rsRdRule_permitted (b : BitVec 3) (k : BitVec 5) :
    (rsRdRule machineParams b k s).Permitted (.rsRd b k) s := by
  unfold rsRdRule
  split_ifs <;> simp [Written.nothing]

theorem encRule_permitted (v : Half) : (encRule machineParams v s).Permitted (.enc v) s := by
  unfold encRule eofRule
  split_ifs <;> simp [Written.enc]

theorem outsideHdr_iff (k : Nat) : outsideHdr k = true ↔ 6 ≤ k := decide_eq_true_iff

theorem outsidePay_iff (k : Nat) : outsidePay machineParams k = true ↔ 2048 ≤ k := decide_eq_true_iff

theorem hdrWrRule_permitted (k : BitVec 12) (b : Byte) : (hdrWrRule k b s).Permitted (.hdrWr k b) s := by
  unfold hdrWrRule
  split
  · simp
  · next hk => exact .hdrWr b s (Nat.lt_of_not_le (mt (outsideHdr_iff _).mpr hk))

theorem hdrRdRule_permitted (k : BitVec 24) : (hdrRdRule k s).Permitted (.hdrRd k) s := by
  unfold hdrRdRule
  split <;> simp [Written.nothing]

theorem payWrRule_permitted (k : BitVec 12) (b : Byte) :
    (payWrRule machineParams k b s).Permitted (.payWr k b) s := by
  unfold payWrRule
  split
  · simp
  · next hk => exact .payWr b s (Nat.lt_of_not_le (mt (outsidePay_iff _).mpr hk))

theorem payRdRule_permitted (k : BitVec 24) : (payRdRule machineParams k s).Permitted (.payRd k) s := by
  unfold payRdRule
  split <;> simp [Written.nothing]

theorem payPackARule_permitted (k v : BitVec 12) :
    (payPackARule machineParams k v s).Permitted (.payPackA k v) s := by
  unfold payPackARule
  split
  · simp
  · next hk => exact .payPackA v s (Nat.lt_of_not_le (mt (outsidePay_iff _).mpr hk))

theorem payPackBRule_permitted (k v : BitVec 12) :
    (payPackBRule machineParams k v s).Permitted (.payPackB k v) s := by
  unfold payPackBRule
  split
  · simp
  · next hk => exact .payPackB v s (Nat.lt_of_not_le (mt (outsidePay_iff _).mpr hk))

theorem frameEncRule_permitted : (frameEncRule machineParams s).Permitted .frameEnc s := by
  unfold frameEncRule
  dsimp only
  split
  · simp
  · next hfit => exact .frameEnc s rfl (by simpa using hfit) rfl

theorem wbRdRule_permitted (k : BitVec 24) : (wbRdRule k s).Permitted (.wbRd k) s := by
  unfold wbRdRule
  split_ifs <;> simp [Written.nothing]

theorem symBuildRule_permitted : (symBuildRule machineParams s).Permitted .symBuild s := by
  unfold symBuildRule
  split
  · simp
  · next hvalid => exact .symBuild s (by simpa using hvalid) rfl

theorem symRdRule_permitted (k : BitVec 24) : (symRdRule k s).Permitted (.symRd k) s := by
  unfold symRdRule
  split_ifs <;> simp [Written.nothing]

theorem modRunRule_permitted : (modRunRule machineParams s).Permitted .modRun s := by
  unfold modRunRule
  split_ifs with hvalid htotal
  · simp
  · simp
  · exact .modRun s (by simpa using hvalid) (by simpa [machineParams] using htotal) rfl

theorem smpRdRule_permitted (k : BitVec 24) : (smpRdRule k s).Permitted (.smpRd k) s := by
  unfold smpRdRule
  split_ifs <;> simp [Written.nothing]

theorem smpRdbRule_permitted (k : BitVec 24) : (smpRdbRule k s).Permitted (.smpRdb k) s := by
  unfold smpRdbRule
  split_ifs <;> simp [Written.nothing]

end Rules

/-! ### How a command and a step end -/

/-- `t` is `s` after an error on the word `c`; E_FAULTED is raised in the faulted state only (60 R115, R116). -/
def Raised (s : State) (c : Word) (t : State) : Prop :=
  ∃ e : ErrKind, (s.fault = false → e ≠ .faulted) ∧ t = s.raise e c

/-- `t` is `s` after command `i` completed; in the faulted state it has written nothing (60 R117). -/
def Completed (i : Instr) (s t : State) : Prop :=
  ∃ (u : State) (v : Half), Written i s u ∧ (s.fault = true → u = s) ∧ t = u.respond v

/-- How serving a command ends, when the command's rule is permitted to reply as it does. -/
theorem serve_ends {i : Instr} {rule : State → Reply} {s t : State} (h : serve i rule s = .next t)
    (hrule : (rule s).Permitted i s) : Raised s (encode i) t ∨ Completed i s t := by
  rcases serve_cases i rule s t h with ⟨hf, rfl⟩ | ⟨hf, u, v, hr, rfl⟩ | ⟨hf, e, hr, rfl⟩
  · exact .inl ⟨.faulted, by simp [hf], rfl⟩
  · rw [hr] at hrule
    exact .inr ⟨u, v, hrule, by simp [hf], rfl⟩
  · rw [hr] at hrule
    exact .inl ⟨e, fun _ => hrule, rfl⟩

/-- The same for NOP and CFG_RD, which are served in the faulted state too and write nothing. -/
theorem serveAlways_ends {i : Instr} {rule : State → Reply} {s t : State} (h : serveAlways i rule s = .next t)
    (hrule : (rule s).Permitted i s) (hsame : ∀ u v, rule s = .ok (u, v) → u = s) :
    Raised s (encode i) t ∨ Completed i s t := by
  rcases serveAlways_cases i rule s t h with ⟨u, v, hr, rfl⟩ | ⟨e, hr, rfl⟩
  · have hu := hsame u v hr
    exact .inr ⟨u, v, hu ▸ .nothing i u, fun _ => hu, rfl⟩
  · rw [hr] at hrule
    exact .inl ⟨e, fun _ => hrule, rfl⟩

/-- How a command ends: an error on its word, or completed with the writes of that command. -/
theorem exec_ends (i : Instr) (s t : State) (h : exec i s = .next t) :
    Raised s (encode i) t ∨ Completed i s t := by
  cases i with
  | nop => exact serveAlways_ends (rule := nopRule) h (.nothing _ s) (by rintro u v ⟨⟩; rfl)
  | cfgRd n => exact serveAlways_ends h (cfgRdRule_permitted s n) (cfgRdRule_unchanged s n)
  | cfgWr n v => exact serve_ends h (cfgWrRule_permitted s n v)
  | gfLog v => exact serve_ends h (gfLogRule_permitted s v)
  | gfAlog v => exact serve_ends h (gfAlogRule_permitted s v)
  | gfModexp v => exact serve_ends h (.nothing _ s)
  | rsReset b => exact serve_ends h (rsResetRule_permitted s b)
  | rsUpdate b v => exact serve_ends h (rsUpdateRule_permitted s b v)
  | rsRd b k => exact serve_ends h (rsRdRule_permitted s b k)
  | encEof => exact serve_ends h (.encEof s)
  | enc v => exact serve_ends h (encRule_permitted s v)
  | hdrWr k b => exact serve_ends h (hdrWrRule_permitted s k b)
  | hdrRd k => exact serve_ends h (hdrRdRule_permitted s k)
  | payWr k b => exact serve_ends h (payWrRule_permitted s k b)
  | payRd k => exact serve_ends h (payRdRule_permitted s k)
  | hdrPack => exact serve_ends h (.hdrPack s)
  | payPackA k v => exact serve_ends h (payPackARule_permitted s k v)
  | payPackB k v => exact serve_ends h (payPackBRule_permitted s k v)
  | bufClr => exact serve_ends h (.bufClr s)
  | frameEnc => exact serve_ends h (frameEncRule_permitted s)
  | wbRd k => exact serve_ends h (wbRdRule_permitted s k)
  | symBuild => exact serve_ends h (symBuildRule_permitted s)
  | symRd k => exact serve_ends h (symRdRule_permitted s k)
  | modRun => exact serve_ends h (modRunRule_permitted s)
  | smpRd k => exact serve_ends h (smpRdRule_permitted s k)
  | smpRdb k => exact serve_ends h (smpRdbRule_permitted s k)

/-- A word that is no command ends in an error. -/
theorem execIllegal_ends (c : Word) (s t : State) (h : execIllegal c s = .next t) : Raised s c t := by
  cases h
  exact ⟨_, by intro hf; simp [hf], rfl⟩

/-- How a step ends: the machine waits, it is reset, or it has taken a word off the port and answered it. -/
theorem step_ends (s t : State) (h : step s = .next t) :
    t = s ∨ (∃ rest, s.inbox = .hardReset :: rest ∧ t = State.reset.withInbox rest) ∨
      ∃ rest, (∃ c, Raised (s.withInbox rest) c t) ∨ ∃ i, Completed i (s.withInbox rest) t := by
  rcases step_cases s t h with
    ⟨_, rfl⟩ | ⟨rest, hin, rfl⟩ | ⟨c, rest, i, _, _, hexec⟩ | ⟨c, rest, _, _, _, hexec⟩
  · exact .inl rfl
  · exact .inr (.inl ⟨rest, hin, rfl⟩)
  · exact .inr (.inr ⟨rest, (exec_ends i _ t hexec).imp (⟨_, ·⟩) (⟨i, ·⟩)⟩)
  · exact .inr (.inr ⟨rest, .inl ⟨c, execIllegal_ends c _ t hexec⟩⟩)

/-- The induction step of an invariant: what holds at reset and is kept by the port, by errors and by completed commands
is kept by every step. -/
theorem step_preserves {P : State → Prop} (hreset : P State.reset)
    (hport : ∀ s rest, P s → P (s.withInbox rest)) (hraise : ∀ s c t, P s → Raised s c t → P t)
    (hdone : ∀ i s t, P s → Completed i s t → P t) {s t : State} (hs : P s) (h : step s = .next t) : P t := by
  rcases step_ends s t h with rfl | ⟨rest, _, rfl⟩ | ⟨rest, ⟨c, hc⟩ | ⟨i, hi⟩⟩
  · exact hs
  · exact hport _ rest hreset
  · exact hraise _ c t (hport s rest hs) hc
  · exact hdone i _ t (hport s rest hs) hi

end Sys2Proof.Machine
end

section
/-! SUPPORT. The frame that FRAME_ENC leaves: the slots of the distributor in closed form (spec 43 R90), the bytes each
bank has folded, and the state after the command. -/

namespace Sys2Proof.Machine

/-! ### A bank under a sequence of bytes -/

/-- The bank that has folded these bytes since it was zeroed (41 R68). -/
def encodedBank (P : Params) (bytes : List Byte) : Bank :=
  { act := true, cnt := bytes.length, par := parityOf P bytes }

theorem foldl_updateBank (P : Params) (bytes : List Byte) (k : Bank) :
    bytes.foldl (updateBank P) k =
      { k with cnt := k.cnt + bytes.length, par := bytes.foldl (rsFold P) k.par } := by
  induction bytes generalizing k with
  | nil => rfl
  | cons b bytes ih =>
    rw [List.foldl_cons, ih]
    simp [updateBank, Nat.add_assoc, Nat.add_comm 1]

theorem foldl_updateBank_freshBank (P : Params) (bytes : List Byte) :
    bytes.foldl (updateBank P) freshBank = encodedBank P bytes := by
  rw [foldl_updateBank]
  simp [freshBank, encodedBank, parityOf]

theorem bankOf_resetBanks (bs : Banks) (n m : Nat) (hn : n ≤ 8) :
    bankOf (resetBanks bs n) m = if m < n then freshBank else bankOf bs m := by
  induction n with
  | zero => simp [resetBanks]
  | succ n ih =>
    have hstep : resetBanks bs (n + 1) = putBank (resetBanks bs n) n freshBank := by
      simp [resetBanks, List.range_succ]
    rw [hstep, bankOf_putBank _ _ _ _ (by omega), ih (by omega)]
    rcases Nat.lt_trichotomy m n with hlt | rfl | hgt
    · simp [hlt, hlt.ne', Nat.lt_succ_of_lt hlt]
    · simp
    · simp [hgt.ne, Nat.not_lt_of_gt hgt, Nat.not_lt_of_ge (Nat.succ_le_of_lt hgt)]

/-! ### The bytes a bank folds -/

/-- The bytes the distributor deals to sub-frame `sub` from written byte `k` on. -/
def dealtTo (byteAt : Nat → Byte) (sub : Nat) (slots : List (Nat × Nat)) (k : Nat) : List Byte :=
  ((slots.zipIdx k).filter (fun e => e.1.2 == sub)).map (fun e => byteAt e.2)

theorem dealtTo_cons (byteAt : Nat → Byte) (sub : Nat) (slot : Nat × Nat) (slots : List (Nat × Nat)) (k : Nat) :
    dealtTo byteAt sub (slot :: slots) k =
      if slot.2 = sub then byteAt k :: dealtTo byteAt sub slots (k + 1) else dealtTo byteAt sub slots (k + 1) := by
  by_cases h : slot.2 = sub <;> simp [dealtTo, List.zipIdx_cons, h]

theorem dealtTo_length (byteAt : Nat → Byte) (sub : Nat) (slots : List (Nat × Nat)) (k : Nat) :
    (dealtTo byteAt sub slots k).length = slots.countP (fun slot => slot.2 == sub) := by
  induction slots generalizing k with
  | nil => rfl
  | cons slot slots ih =>
    rw [dealtTo_cons, List.countP_cons]
    by_cases h : slot.2 = sub <;> simp [h, ih]

/-- The distributor folds into each bank the bytes dealt to it, in order, and nothing else (43 R89). -/
theorem bankOf_distribute (P : Params) (byteAt : Nat → Byte) (slots : List (Nat × Nat)) (k : Nat) (bs : Banks)
    (sub : Nat) (h : ∀ slot ∈ slots, slot.2 < 8) :
    bankOf (distribute P byteAt slots k bs).1 sub =
      (dealtTo byteAt sub slots k).foldl (updateBank P) (bankOf bs sub) := by
  induction slots generalizing k bs with
  | nil => rfl
  | cons slot slots ih =>
    rw [distribute, ih _ _ (fun e he => h e (by simp [he])), dealtTo_cons, rsUpdate,
      bankOf_putBank _ _ _ _ (h slot (by simp))]
    by_cases hs : slot.2 = sub
    · simp [hs]
    · simp [hs]

/-! ### The slot map (43 R90) -/

/-- Every slot of `c` columns and `n` sub-frames, in column-major order. -/
def slotGrid (c n : Nat) : List (Nat × Nat) :=
  (List.range c).flatMap (fun i => (List.range n).map (fun s => (i, s)))

/-- The slot that stands at place `i * n + s` of the grid. -/
theorem slot_at_place (i : Nat) {s n : Nat} (hs : s < n) : ((i * n + s) / n, (i * n + s) % n) = (i, s) := by
  rw [Nat.mul_comm, Nat.mul_add_div (by omega), Nat.mul_add_mod, Nat.div_eq_of_lt hs, Nat.mod_eq_of_lt hs,
    Nat.add_zero]

theorem slotGrid_eq (c n : Nat) : slotGrid c n = (List.range (c * n)).map (fun j => (j / n, j % n)) := by
  induction c with
  | zero => simp [slotGrid]
  | succ c ih =>
    have hstep : slotGrid (c + 1) n = slotGrid c n ++ (List.range n).map (fun s => (c, s)) := by
      simp [slotGrid, List.range_succ]
    rw [hstep, ih, Nat.succ_mul, List.range_add, List.map_append, List.map_map]
    congr 1
    exact List.map_congr_left fun s hs => (slot_at_place c (List.mem_range.mp hs)).symm

theorem countP_slotGrid_le (c n sub : Nat) : (slotGrid c n).countP (fun slot => slot.2 == sub) ≤ c := by
  induction c with
  | zero => simp [slotGrid]
  | succ c ih =>
    have hstep : slotGrid (c + 1) n = slotGrid c n ++ (List.range n).map (fun s => (c, s)) := by
      simp [slotGrid, List.range_succ]
    have hcolumn : (List.range n).count sub ≤ 1 := List.nodup_iff_count_le_one.mp List.nodup_range sub
    rw [hstep, List.countP_append, List.countP_map]
    exact Nat.add_le_add ih hcolumn

/-- Leaving number `z` out of the first `m` numbers is what `slotOf z` counts through. -/
theorem filter_range_ne (m z : Nat) (hz : z < m) :
    (List.range m).filter (fun j => j != z) = (List.range (m - 1)).map (slotOf z) := by
  obtain ⟨r, rfl⟩ : ∃ r, m = z + 1 + r := ⟨m - (z + 1), by omega⟩
  have hbelow : (List.range z).filter (fun j => j != z) = (List.range z).map (slotOf z) := by
    rw [List.filter_eq_self.mpr (by intro j hj; have := List.mem_range.mp hj; simp; omega)]
    conv_lhs => rw [← List.map_id (List.range z)]
    refine List.map_congr_left fun j hj => ?_
    simp [slotOf, List.mem_range.mp hj]
  have habove : ((List.range r).map (z + 1 + ·)).filter (fun j => j != z) =
      ((List.range r).map (z + ·)).map (slotOf z) := by
    rw [List.filter_eq_self.mpr (by simp; omega), List.map_map]
    refine List.map_congr_left fun j _ => ?_
    simp [slotOf]; omega
  rw [show z + 1 + r - 1 = z + r by omega, List.range_add, List.range_succ, List.range_add, List.filter_append,
    List.filter_append, List.map_append, hbelow, habove]
  simp

/-- The place of the skipped slot in the grid, the number of slots when none is skipped (43 R90). -/
def Geometry.hole (g : Geometry) : Nat := if g.skip then g.sc * g.n + g.ss else g.c * g.n

theorem Geometry.skip_inside (g : Geometry) (hfit : g.inconsistent = false) (hskip : g.skip = true) :
    g.sc < g.c ∧ g.ss < g.n := by
  simp [Geometry.inconsistent, hskip] at hfit
  omega

theorem Geometry.hole_lt (g : Geometry) (hfit : g.inconsistent = false) (hskip : g.skip = true) :
    g.hole < g.c * g.n := by
  obtain ⟨hsc, hss⟩ := g.skip_inside hfit hskip
  calc g.hole = g.sc * g.n + g.ss := by simp [Geometry.hole, hskip]
    _ < g.sc * g.n + g.n := by omega
    _ = (g.sc + 1) * g.n := by rw [Nat.succ_mul]
    _ ≤ g.c * g.n := Nat.mul_le_mul_right _ hsc

/-- W counts the slots that are not skipped (43 R89). -/
theorem Geometry.w_eq (g : Geometry) (hfit : g.inconsistent = false) :
    g.w = g.n * g.c - (if g.hole < g.n * g.c then 1 else 0) := by
  cases hskip : g.skip with
  | false => simp [Geometry.w, Geometry.hole, hskip, Nat.mul_comm]
  | true =>
    have hinside := g.hole_lt hfit hskip
    rw [Nat.mul_comm g.c] at hinside
    simp [Geometry.w, hskip, hinside]

theorem Geometry.slots_eq_filter (g : Geometry) :
    g.slots = (slotGrid g.c g.n).filter (fun slot => !(g.skip && slot == (g.sc, g.ss))) := rfl

/-- Slot `j` of the grid is the skipped one exactly when `j` is the hole. -/
theorem Geometry.slot_eq_skipped_iff (g : Geometry) (hss : g.ss < g.n) (j : Nat) :
    (j / g.n, j % g.n) = (g.sc, g.ss) ↔ j = g.sc * g.n + g.ss := by
  constructor
  · intro h
    obtain ⟨hq, hr⟩ := Prod.mk.inj h
    rw [← hq, ← hr, Nat.div_add_mod']
  · rintro rfl
    exact slot_at_place g.sc hss

/-- The slot of each written byte, in closed form (43 R90). -/
theorem Geometry.slots_eq (g : Geometry) (hfit : g.inconsistent = false) :
    g.slots = (List.range g.w).map (fun k => (slotOf g.hole k / g.n, slotOf g.hole k % g.n)) := by
  rw [g.slots_eq_filter, slotGrid_eq]
  cases hskip : g.skip with
  | false =>
    have hw : g.w = g.c * g.n := by simp [Geometry.w, hskip, Nat.mul_comm]
    simp only [Bool.false_and, Bool.not_false, List.filter_true, hw]
    refine List.map_congr_left fun j hj => ?_
    simp [slotOf, Geometry.hole, hskip, List.mem_range.mp hj]
  | true =>
    obtain ⟨_, hss⟩ := g.skip_inside hfit hskip
    have hw : g.w = g.c * g.n - 1 := by simp [Geometry.w, hskip, Nat.mul_comm]
    have hhole : g.hole = g.sc * g.n + g.ss := by simp [Geometry.hole, hskip]
    have hkeep : (List.range (g.c * g.n)).filter
        ((fun slot => !(true && slot == (g.sc, g.ss))) ∘ fun j => (j / g.n, j % g.n)) =
        (List.range (g.c * g.n)).filter (fun j => j != g.hole) := by
      refine List.filter_congr fun j _ => Bool.eq_iff_iff.mpr ?_
      simp only [Function.comp_apply, Bool.true_and, Bool.not_eq_true', beq_eq_false_iff_ne, bne_iff_ne, ne_eq,
        g.slot_eq_skipped_iff hss j, hhole]
    rw [List.filter_map, hkeep, filter_range_ne _ _ (g.hole_lt hfit hskip), List.map_map, hw]
    rfl

theorem Geometry.slots_length (g : Geometry) (hfit : g.inconsistent = false) : g.slots.length = g.w := by
  simp [g.slots_eq hfit]

theorem Geometry.sub_lt_of_mem_slots (g : Geometry) (slot : Nat × Nat) (h : slot ∈ g.slots) : slot.2 < g.n := by
  rw [g.slots_eq_filter] at h
  obtain ⟨i, _, s, hs, rfl⟩ : ∃ i, i < g.c ∧ ∃ s, s < g.n ∧ (i, s) = slot := by
    simpa [slotGrid] using (List.mem_filter.mp h).1
  exact hs

/-- What the distributor deals is what 43 R90 says each sub-frame folds. -/
theorem dealtTo_slots (g : Geometry) (hfit : g.inconsistent = false) (byteAt : Nat → Byte) (sub : Nat) :
    dealtTo byteAt sub g.slots 0 = foldedBy byteAt g.w g.n g.hole sub := by
  have hindex : (List.range g.w).zipIdx = (List.range g.w).map (fun k => (k, k)) :=
    List.ext_getElem (by simp) (by simp)
  rw [g.slots_eq hfit, dealtTo, List.zipIdx_map, hindex, List.map_map, List.filter_map, List.map_map, foldedBy]
  rfl

theorem foldedBy_length_le (g : Geometry) (hfit : g.inconsistent = false) (byteAt : Nat → Byte) (sub : Nat) :
    (foldedBy byteAt g.w g.n g.hole sub).length ≤ g.c := by
  rw [← dealtTo_slots g hfit, dealtTo_length, g.slots_eq_filter]
  exact (List.filter_sublist.countP_le).trans (countP_slotGrid_le g.c g.n sub)

theorem dealtTo_eq_nil (g : Geometry) (byteAt : Nat → Byte) (sub : Nat) (h : g.n ≤ sub) :
    dealtTo byteAt sub g.slots 0 = [] := by
  rw [← List.length_eq_zero_iff, dealtTo_length, List.countP_eq_zero]
  intro slot hslot
  have := g.sub_lt_of_mem_slots slot hslot
  simp; omega

theorem foldedBy_congr {f f' : Nat → Byte} {w : Nat} (h : ∀ k, k < w → f k = f' k) (n z sub : Nat) :
    foldedBy f w n z sub = foldedBy f' w n z sub :=
  List.map_congr_left fun k hk => h k (List.mem_range.mp (List.mem_filter.mp hk).1)

/-! ### The frame -/

/-- The banks after FRAME_ENC: each sub-frame's holds exactly its bytes, the others are as before (43 R89, R90). -/
theorem bankOf_encodedFrame (g : Geometry) (hfit : g.inconsistent = false) (hn : g.n ≤ 8) (byteAt : Nat → Byte)
    (bs : Banks) (sub : Nat) :
    bankOf (distribute machineParams byteAt g.slots 0 (resetBanks bs g.n)).1 sub =
      if sub < g.n then encodedBank machineParams (foldedBy byteAt g.w g.n g.hole sub) else bankOf bs sub := by
  rw [bankOf_distribute _ _ _ _ _ _ (fun slot h => by have := g.sub_lt_of_mem_slots slot h; omega),
    bankOf_resetBanks _ _ _ hn]
  split
  · rw [dealtTo_slots g hfit, foldl_updateBank_freshBank]
  · next h => rw [dealtTo_eq_nil g byteAt sub (by omega)]; rfl

/-- WB after FRAME_ENC holds the frame's bytes below W (43 R89). -/
theorem read_encodedFrame (g : Geometry) (hfit : g.inconsistent = false) (byteAt : Nat → Byte) (bs : Banks)
    (wb : Buf 8) (k : Nat) (hk : k < g.w) :
    Buf.read (Buf.fill wb (distribute machineParams byteAt g.slots 0 bs).2) k = byteAt k := by
  simp [Buf.read_fill, distribute_bytes, g.slots_length hfit, hk]

end Sys2Proof.Machine
end

section
/-! SUPPORT. The registers (spec 10 R27): the number of each writable register, what a write gives back to a read, and
CFG_RD and CFG_WR of a register by its name. Settles O10 to O13. -/

namespace Sys2Proof.Machine

/-! ### The register map -/

/-- The number of a writable register (10 R27). -/
def CfgReg.number : CfgReg → Byte
  | .mode => 0x03
  | .nSf => 0x04
  | .cols => 0x05
  | .headerLen => 0x06
  | .payloadLen => 0x07
  | .skipEn => 0x08
  | .skipCol => 0x09
  | .skipSf => 0x0A
  | .hdrId => 0x0B
  | .hdrReset => 0x0C
  | .hdrUptimeLo => 0x0D
  | .hdrUptimeHi => 0x0E
  | .hdrType => 0x0F
  | .syncBits => 0x10
  | .syncWordLo => 0x11
  | .syncWordHi => 0x12
  | .spb => 0x13
  | .smaller => 0x14

/-- A number stands for a writable register when it is that register's. -/
theorem regOfNumber_eq_rw_iff (P : Params) (n : Byte) (r : CfgReg) :
    regOfNumber P n = some (.rw r) ↔ n = r.number := by
  constructor
  · intro h
    apply BitVec.eq_of_toNat_eq
    unfold regOfNumber at h
    split at h
    case h_28 => split at h <;> cases h
    all_goals cases h <;> assumption
  · rintro rfl
    cases r <;> rfl

theorem regOfNumber_number (P : Params) (r : CfgReg) : regOfNumber P r.number = some (.rw r) :=
  (regOfNumber_eq_rw_iff P _ r).mpr rfl

/-- The numbers 0x03 to 0x14 are those of the writable registers. -/
theorem exists_number_eq (n : Byte) (hlo : 0x03 ≤ n.toNat) (hhi : n.toNat ≤ 0x14) : ∃ r : CfgReg, n = r.number := by
  have hn : n = BitVec.ofNat 8 n.toNat := by simp
  generalize n.toNat = m at hn hlo hhi
  subst hn
  interval_cases m
  exacts [⟨.mode, rfl⟩, ⟨.nSf, rfl⟩, ⟨.cols, rfl⟩, ⟨.headerLen, rfl⟩, ⟨.payloadLen, rfl⟩, ⟨.skipEn, rfl⟩,
    ⟨.skipCol, rfl⟩, ⟨.skipSf, rfl⟩, ⟨.hdrId, rfl⟩, ⟨.hdrReset, rfl⟩, ⟨.hdrUptimeLo, rfl⟩, ⟨.hdrUptimeHi, rfl⟩,
    ⟨.hdrType, rfl⟩, ⟨.syncBits, rfl⟩, ⟨.syncWordLo, rfl⟩, ⟨.syncWordHi, rfl⟩, ⟨.spb, rfl⟩, ⟨.smaller, rfl⟩]

theorem number_range (r : CfgReg) : 0x03 ≤ r.number.toNat ∧ r.number.toNat ≤ 0x14 := by
  cases r <;> decide

/-! ### Writing and reading a register -/

theorem setWidth_setWidth_of_lt {w : Nat} (v : Half) (hv : v.toNat < 2 ^ w) :
    (v.setWidth w).setWidth 16 = v := by
  apply BitVec.eq_of_toNat_eq
  rw [BitVec.toNat_setWidth, BitVec.toNat_setWidth, Nat.mod_eq_of_lt hv, Nat.mod_eq_of_lt v.isLt]

/-- A legal value fits the width of its register, so it is read back as it was written (10 R27). -/
theorem readCfg_writeCfg_same (c : Cfg) (r : CfgReg) (v : Half)
    (h : legalValue machineParams r v.toNat = true) : readCfg (writeCfg c r v) r = v := by
  cases r
  case hdrReset | hdrUptimeLo | syncWordLo | syncWordHi | spb | smaller => rfl
  all_goals
    have hrange := of_decide_eq_true h
    have hnMax : machineParams.nMax = 8 := rfl
    have hpayMax : machineParams.payMax = 2048 := rfl
    exact setWidth_setWidth_of_lt v (by omega)

/-- Writing one register leaves every other as it was (46 R108). -/
theorem readCfg_writeCfg_other (c : Cfg) (r r' : CfgReg) (v : Half) (h : r' ≠ r) :
    readCfg (writeCfg c r v) r' = readCfg c r' := by
  cases r <;> cases r' <;> simp [readCfg, writeCfg] at h ⊢

/-- Every register being legal, said register by register. -/
theorem Cfg.legal_iff (c : Cfg) : c.Legal ↔ ∀ r, legalValue machineParams r (readCfg c r).toNat = true := by
  have hnMax : machineParams.nMax = 8 := rfl
  have hpayMax : machineParams.payMax = 2048 := rfl
  constructor
  · rintro ⟨hmode, hnSf, hcols, hheaderLen, hpayloadLen, hskipCol, hsyncBits, hspb⟩ r
    cases r <;> refine decide_eq_true ?_ <;> simp only [readCfg, BitVec.toNat_setWidth] <;> omega
  · intro h
    have hmode := of_decide_eq_true (h .mode)
    have hnSf := of_decide_eq_true (h .nSf)
    have hcols := of_decide_eq_true (h .cols)
    have hheaderLen := of_decide_eq_true (h .headerLen)
    have hpayloadLen := of_decide_eq_true (h .payloadLen)
    have hskipCol := of_decide_eq_true (h .skipCol)
    have hsyncBits := of_decide_eq_true (h .syncBits)
    have hspb := of_decide_eq_true (h .spb)
    simp only [readCfg, BitVec.toNat_setWidth] at hmode hnSf hcols hheaderLen hpayloadLen hskipCol hsyncBits hspb
    unfold Cfg.Legal
    omega

/-- Storing a legal value keeps every register legal (10 R27). -/
theorem Cfg.Legal.writeCfg {c : Cfg} (hc : c.Legal) (r : CfgReg) (v : Half)
    (h : legalValue machineParams r v.toNat = true) : (writeCfg c r v).Legal := by
  rw [Cfg.legal_iff] at *
  intro r'
  by_cases hr : r' = r
  · rw [hr, readCfg_writeCfg_same c r v h]; exact h
  · rw [readCfg_writeCfg_other c r r' v hr]; exact hc r'

/-! ### Errors in terms of the statements -/

theorem State.raise_eq_afterError (s : State) (e : ErrKind) (c : Word) :
    s.raise e c = s.afterError e.code (opcodeOf c) (c.extractLsb' 0 16) := by
  cases hf : s.fault <;> simp [State.raise, State.afterError, hf, State.withRecord, State.withResponse]

theorem low_half_encode_cfgRd (n : Byte) : (encode (.cfgRd n)).extractLsb' 0 16 = 0 :=
  BitVec.extractLsb'_append_eq_right

theorem low_half_encode_cfgWr (n : Byte) (v : Half) : (encode (.cfgWr n v)).extractLsb' 0 16 = v :=
  BitVec.extractLsb'_append_eq_right

/-! ### CFG_RD -/

theorem exec_cfgRd (n : Byte) (s : State) :
    exec (.cfgRd n) s = answer (.cfgRd n) s (cfgRdRule machineParams n s) := rfl

theorem exec_cfgRd_assigned (n : Byte) (s : State) (r : Reg) (h : regOfNumber machineParams n = some r) :
    exec (.cfgRd n) s = .next (s.completed (readReg s r)) := by
  rw [exec_cfgRd, cfgRdRule, h]
  rfl

theorem exec_cfgRd_unassigned (n : Byte) (s : State) (h : regOfNumber machineParams n = none) :
    exec (.cfgRd n) s = .next (s.afterError 2 0x01 0) := by
  rw [exec_cfgRd, cfgRdRule, h]
  show Host.Outcome.next (s.raise .invalidArg (encode (.cfgRd n))) = _
  rw [State.raise_eq_afterError, low_half_encode_cfgRd, Sys2Proof.Laws.EncodedOpcode.cfgRd]
  rfl

theorem exec_cfgRd_number (r : CfgReg) (s : State) :
    exec (.cfgRd r.number) s = .next (s.completed (readCfg s.cfg r)) :=
  exec_cfgRd_assigned _ s _ (regOfNumber_number machineParams r)

theorem exec_cfgRd_stat (n : Byte) (s : State) (r : StatReg) (h : regOfNumber machineParams n = some (.ro r)) :
    exec (.cfgRd n) s = .next (s.completed (readStat s r)) :=
  exec_cfgRd_assigned n s _ h

/-- Settles O10, register by register. -/
theorem cfgRdReturnsWritableRegisters : Obligations.CfgRdReturnsWritableRegisters := fun s =>
  ⟨exec_cfgRd_number .mode s, exec_cfgRd_number .nSf s, exec_cfgRd_number .cols s, exec_cfgRd_number .headerLen s,
    exec_cfgRd_number .payloadLen s, exec_cfgRd_number .skipEn s, exec_cfgRd_number .skipCol s,
    exec_cfgRd_number .skipSf s, exec_cfgRd_number .hdrId s, exec_cfgRd_number .hdrReset s,
    exec_cfgRd_number .hdrUptimeLo s, exec_cfgRd_number .hdrUptimeHi s, exec_cfgRd_number .hdrType s,
    exec_cfgRd_number .syncBits s, exec_cfgRd_number .syncWordLo s, exec_cfgRd_number .syncWordHi s,
    exec_cfgRd_number .spb s, exec_cfgRd_number .smaller s⟩

/-! ### Status registers -/

theorem flagAt_getLsbD (f : Bool) (k i : Nat) (hk : k < 16) : (flagAt f k).getLsbD i = (f && decide (i = k)) := by
  cases f
  · simp [flagAt]
  · simp [flagAt, BitVec.getLsbD_twoPow, hk, eq_comm]

/-- STATUS bit by bit (10 R28). -/
theorem statusValue_getLsbD (s : State) (i : Nat) : (statusValue s).getLsbD i =
    (s.fault && decide (i = 0) || s.rd.bit && decide (i = 1) || s.frameValid && decide (i = 2) ||
      s.symValid && decide (i = 3) || s.smpValid && decide (i = 4) || phaseNeg s.phase && decide (i = 5)) := by
  simp [statusValue, flagAt_getLsbD]

/-- The bits of STATUS above the flags are 0 (10 R28). -/
theorem statusValue_high (s : State) : (statusValue s).extractLsb' 6 10 = 0 := by
  refine BitVec.eq_of_getLsbD_eq fun i _ => ?_
  have hne : ∀ k, k < 6 → ¬ 6 + i = k := by omega
  rw [BitVec.getLsbD_extractLsb', statusValue_getLsbD]
  simp [hne]

theorem phaseNeg_eq (p : Phase) : phaseNeg p = decide (p = .minus) := by
  cases p <;> rfl

/-- A count within the width of its register is shown whole (10 R15, R27). -/
theorem toNat_ofNat_setWidth (w n : Nat) (hn : n < 2 ^ w) (hw : w ≤ 16) :
    ((BitVec.ofNat w n).setWidth 16).toNat = n := by
  rw [BitVec.toNat_setWidth_of_le hw, BitVec.toNat_ofNat, Nat.mod_eq_of_lt hn]

/-- RS_STAT as a number: RS_CNT, and RS_ACT at bit 8 (10 R27). -/
theorem rsStatValue_toNat (b : Bank) (h : b.cnt < 2 ^ 8) :
    (rsStatValue b).toNat = b.cnt + if b.act then 256 else 0 := by
  rw [rsStatValue, BitVec.toNat_or, toNat_ofNat_setWidth 8 b.cnt h (by omega)]
  cases b.act
  · simp [flagAt]
  · have hbits := Nat.two_pow_add_eq_or_of_lt h 1
    simpa [flagAt, Nat.or_comm, Nat.add_comm] using hbits.symm

theorem regOfNumber_rsStat :
    ∀ b : BitVec 3, regOfNumber machineParams (0x20 + b.setWidth 8) = some (.ro (.rsStat b)) := by decide

theorem regOfNumber_unassigned (n : Byte) (h : (0x1A < n.toNat ∧ n.toNat < 0x20) ∨ 0x28 ≤ n.toNat) :
    regOfNumber machineParams n = none := by
  have hnMax : machineParams.nMax = 8 := rfl
  unfold regOfNumber
  split
  case h_28 => exact if_neg (by clear * - h hnMax; omega)
  all_goals omega

/-- The two halves of SMP_COUNT (10 R27). -/
theorem smpCount_halves (n : Nat) (h : n ≤ 2 ^ 23) :
    ((BitVec.ofNat 8 (n / 2 ^ 16)).setWidth 16 : Half).toNat * 2 ^ 16 + (BitVec.ofNat 16 n).toNat = n := by
  rw [toNat_ofNat_setWidth 8 _ (by omega) (by omega), BitVec.toNat_ofNat]
  omega

/-- Settles O11, register by register. -/
theorem cfgRdReturnsStatusRegisters : Obligations.CfgRdReturnsStatusRegisters := by
  rintro s ⟨hcnt, hwCount, hframeN, hsymCount, hsmpCount, hrevCount⟩
  refine ⟨⟨_, exec_cfgRd_stat 0x00 s .status rfl, ?_⟩, ⟨_, exec_cfgRd_stat 0x01 s .faultCode rfl, ?_⟩,
    exec_cfgRd_stat 0x02 s .faultInfo rfl, ⟨_, exec_cfgRd_stat 0x15 s .wCount rfl, ?_⟩,
    ⟨_, exec_cfgRd_stat 0x16 s .symCount rfl, ?_⟩,
    ⟨_, _, exec_cfgRd_stat 0x17 s .smpCountLo rfl, exec_cfgRd_stat 0x18 s .smpCountHi rfl, ?_⟩,
    ⟨_, exec_cfgRd_stat 0x19 s .revCount rfl, ?_⟩, ⟨_, exec_cfgRd_stat 0x1A s .frameN rfl, ?_⟩,
    fun b => ⟨_, exec_cfgRd_stat _ s (.rsStat b) (regOfNumber_rsStat b), ?_⟩,
    fun n hn => exec_cfgRd_unassigned n s (regOfNumber_unassigned n hn)⟩
  case refine_1 => simp [readStat, statusValue_getLsbD, statusValue_high, phaseNeg_eq, -BitVec.getLsbD_eq_getElem]
  case refine_2 => exact ⟨BitVec.extractLsb'_append_eq_right, BitVec.extractLsb'_append_eq_left⟩
  case refine_3 => exact toNat_ofNat_setWidth 11 s.wCount (by omega) (by omega)
  case refine_4 => exact toNat_ofNat_setWidth 11 s.symCount (by omega) (by omega)
  case refine_5 => exact smpCount_halves s.smpCount hsmpCount
  case refine_6 => exact Nat.mod_eq_of_lt (by omega)
  case refine_7 => exact toNat_ofNat_setWidth 4 s.frameN (by omega) (by omega)
  case refine_8 =>
    have := hcnt b.toNat b.isLt
    exact rsStatValue_toNat _ (by omega)

/-! ### CFG_WR -/

theorem exec_cfgWr (n : Byte) (v : Half) (s : State) (hf : s.fault = false) :
    exec (.cfgWr n v) s = answer (.cfgWr n v) s (cfgWrRule machineParams n v s) := by
  show serve _ _ s = _
  rw [serve, hf]
  rfl

theorem answer_cfgWr_invalidArg (n : Byte) (v : Half) (s : State) :
    answer (.cfgWr n v) s (.error .invalidArg) = .next (s.afterError 2 0x02 v) := by
  show Host.Outcome.next (s.raise .invalidArg (encode (.cfgWr n v))) = _
  rw [State.raise_eq_afterError, low_half_encode_cfgWr, Sys2Proof.Laws.EncodedOpcode.cfgWr]
  rfl

/-- CFG_WR of a writable register, the legal values said in any equivalent way (46 R108). -/
theorem exec_cfgWr_number (r : CfgReg) (v : Half) (s : State) (hf : s.fault = false) {legal : Prop} [Decidable legal]
    (hlegal : legalValue machineParams r v.toNat = true ↔ legal) :
    exec (.cfgWr r.number v) s = cfgWrOutcome s v legal (writeCfg s.cfg r v) := by
  rw [exec_cfgWr _ _ _ hf, cfgWrRule, regOfNumber_number, cfgWrOutcome]
  dsimp only
  by_cases h : legal
  · rw [if_pos (hlegal.mpr h), if_pos h]
    rfl
  · rw [if_neg (mt hlegal.mp h), if_neg h]
    exact answer_cfgWr_invalidArg _ v s

/-- CFG_WR of a number that is no writable register's (46 R108). -/
theorem exec_cfgWr_refused (n : Byte) (v : Half) (s : State) (hf : s.fault = false) (hn : ∀ r : CfgReg, n ≠ r.number) :
    exec (.cfgWr n v) s = .next (s.afterError 2 0x02 v) := by
  rw [exec_cfgWr _ _ _ hf, cfgWrRule]
  split
  · exact answer_cfgWr_invalidArg n v s
  · exact answer_cfgWr_invalidArg n v s
  · next r hreg => exact absurd ((regOfNumber_eq_rw_iff _ _ _).mp hreg) (hn r)

/-- Settles O12, register by register. -/
theorem cfgWrStoresLegalValues : Obligations.CfgWrStoresLegalValues := by
  intro s v hf
  have hall : v.toNat ≤ 65535 := Nat.le_of_lt_succ v.isLt
  exact ⟨exec_cfgWr_number .mode v s hf decide_eq_true_iff,
    exec_cfgWr_number .nSf v s hf decide_eq_true_iff,
    exec_cfgWr_number .cols v s hf decide_eq_true_iff,
    exec_cfgWr_number .headerLen v s hf decide_eq_true_iff,
    exec_cfgWr_number .payloadLen v s hf decide_eq_true_iff,
    exec_cfgWr_number .skipEn v s hf decide_eq_true_iff,
    exec_cfgWr_number .skipCol v s hf decide_eq_true_iff,
    exec_cfgWr_number .skipSf v s hf (decide_eq_true_iff.trans Nat.lt_succ_iff),
    exec_cfgWr_number .hdrId v s hf decide_eq_true_iff,
    exec_cfgWr_number .hdrReset v s hf (iff_true_intro (decide_eq_true hall)),
    exec_cfgWr_number .hdrUptimeLo v s hf (iff_true_intro (decide_eq_true hall)),
    exec_cfgWr_number .hdrUptimeHi v s hf decide_eq_true_iff,
    exec_cfgWr_number .hdrType v s hf decide_eq_true_iff,
    exec_cfgWr_number .syncBits v s hf decide_eq_true_iff,
    exec_cfgWr_number .syncWordLo v s hf (iff_true_intro (decide_eq_true hall)),
    exec_cfgWr_number .syncWordHi v s hf (iff_true_intro (decide_eq_true hall)),
    exec_cfgWr_number .spb v s hf (decide_eq_true_iff.trans (and_iff_left hall)),
    exec_cfgWr_number .smaller v s hf (iff_true_intro (decide_eq_true hall)),
    fun n hn => exec_cfgWr_refused n v s hf (by rintro r rfl; have := number_range r; omega)⟩

/-- CFG_WR that leaves FAULT = 0 has stored a legal value in the register of its number. -/
theorem exec_cfgWr_stored (n : Byte) (v : Half) (s t : State) (hf : s.fault = false)
    (h : exec (.cfgWr n v) s = .next t) (ht : t.fault = false) :
    ∃ r, n = r.number ∧ legalValue machineParams r v.toNat = true ∧ t.cfg = writeCfg s.cfg r v := by
  rw [exec_cfgWr _ _ _ hf, cfgWrRule] at h
  split at h
  · cases h; simp at ht
  · cases h; simp at ht
  · next r hreg =>
    split at h
    · next hlegal => cases h; exact ⟨r, (regOfNumber_eq_rw_iff _ _ _).mp hreg, hlegal, rfl⟩
    · cases h; simp at ht

/-- Settles O13: CFG_WR has stored the value in one register, and reads go by the register's number. -/
theorem cfgRdReturnsWhatCfgWrStored : Obligations.CfgRdReturnsWhatCfgWrStored := by
  intro s t n v hf h ht
  obtain ⟨r, rfl, hlegal, hcfg⟩ := exec_cfgWr_stored n v s t hf h ht
  refine ⟨by rw [exec_cfgRd_number, hcfg, readCfg_writeCfg_same _ _ _ hlegal], fun m old hm hlo hhi hold => ?_⟩
  obtain ⟨r', rfl⟩ := exists_number_eq m hlo hhi
  have hr : r' ≠ r := fun heq => hm (by rw [heq])
  rw [exec_cfgRd_number] at hold ⊢
  have hvalue : readCfg s.cfg r' = old := by
    have hresponse := congrArg State.response (Host.Outcome.next.inj hold)
    have hword : responseWord 0 (readCfg s.cfg r') = responseWord 0 old := Option.some.inj hresponse
    rw [← responseWord_result 0 (readCfg s.cfg r'), hword, responseWord_result]
  rw [hcfg, readCfg_writeCfg_other _ _ _ _ hr, hvalue]

end Sys2Proof.Machine
end

section
/-! SUPPORT. Who writes what: the faulted machine is frozen (O54), and each piece of state is written by its own
commands only (O57). -/

namespace Sys2Proof.Machine

/-! ### The faulted machine -/

theorem Raised.of_fault {s t : State} {c : Word} (h : Raised s c t) (hf : s.fault = true) :
    ∃ r, t = s.withResponse r := by
  obtain ⟨e, _, rfl⟩ := h
  exact ⟨_, s.raise_of_fault e c hf⟩

theorem Completed.of_fault {s t : State} {i : Instr} (h : Completed i s t) (hf : s.fault = true) :
    ∃ r, t = s.withResponse r := by
  obtain ⟨u, v, _, hsame, rfl⟩ := h
  exact ⟨_, by rw [hsame hf, State.respond_eq]⟩

/-- Settles O54: of the ways a step ends, the faulted machine has waiting, errors and commands that write nothing. -/
theorem faultedMachineIsFrozen : Obligations.FaultedMachineIsFrozen := by
  intro s t hf hport h
  rcases step_ends s t h with rfl | ⟨rest, hin, rfl⟩ | ⟨rest, ⟨c, hc⟩ | ⟨i, hi⟩⟩
  · rfl
  · exact absurd hin (hport rest)
  · obtain ⟨r, rfl⟩ := hc.of_fault hf
    rfl
  · obtain ⟨r, rfl⟩ := hi.of_fault hf
    rfl

/-! ### Who writes what -/

namespace Written

variable {i : Instr} {s u : State} (h : Written i s u)

include h

/-- Completed commands write neither the port nor the fault record. -/
theorem keeps_port_record : u.inbox = s.inbox ∧ u.fault = s.fault ∧ u.faultCode = s.faultCode ∧
    u.faultOp = s.faultOp ∧ u.faultInfo = s.faultInfo := by
  cases h <;> exact ⟨rfl, rfl, rfl, rfl, rfl⟩

theorem keeps_banks (hreset : ∀ b, i ≠ .rsReset b) (hupdate : ∀ b v, i ≠ .rsUpdate b v) (hframe : i ≠ .frameEnc) :
    u.banks = s.banks ∧ u.frameValid = s.frameValid := by
  cases h with
  | rsReset b => exact absurd rfl (hreset b)
  | rsUpdate b v => exact absurd rfl (hupdate b v)
  | frameEnc => exact absurd rfl hframe
  | _ => exact ⟨rfl, rfl⟩

theorem keeps_frame (hframe : i ≠ .frameEnc) : u.wb = s.wb ∧ u.wCount = s.wCount ∧ u.frameN = s.frameN := by
  cases h with
  | frameEnc => exact absurd rfl hframe
  | _ => exact ⟨rfl, rfl, rfl⟩

theorem keeps_rd (henc : ∀ v, i ≠ .enc v) (heof : i ≠ .encEof) (hbuild : i ≠ .symBuild) : u.rd = s.rd := by
  cases h with
  | enc v => exact absurd rfl (henc v)
  | encEof => exact absurd rfl heof
  | symBuild => exact absurd rfl hbuild
  | _ => rfl

theorem keeps_hdr (hwr : ∀ k b, i ≠ .hdrWr k b) (hpack : i ≠ .hdrPack) (hclr : i ≠ .bufClr) : u.hdr = s.hdr := by
  cases h with
  | hdrWr b => exact absurd rfl (hwr _ b)
  | hdrPack => exact absurd rfl hpack
  | bufClr => exact absurd rfl hclr
  | _ => rfl

theorem keeps_pay (hwr : ∀ k b, i ≠ .payWr k b) (hpackA : ∀ k v, i ≠ .payPackA k v)
    (hpackB : ∀ k v, i ≠ .payPackB k v) (hclr : i ≠ .bufClr) : u.pay = s.pay := by
  cases h with
  | payWr b => exact absurd rfl (hwr _ b)
  | payPackA v => exact absurd rfl (hpackA _ v)
  | payPackB v => exact absurd rfl (hpackB _ v)
  | bufClr => exact absurd rfl hclr
  | _ => rfl

theorem keeps_symbols (hbuild : i ≠ .symBuild) :
    u.sym = s.sym ∧ u.symCount = s.symCount ∧ u.symValid = s.symValid := by
  cases h with
  | symBuild => exact absurd rfl hbuild
  | _ => exact ⟨rfl, rfl, rfl⟩

theorem keeps_samples (hrun : i ≠ .modRun) : u.smp = s.smp ∧ u.smpCount = s.smpCount ∧ u.smpValid = s.smpValid ∧
    u.phase = s.phase ∧ u.revCount = s.revCount := by
  cases h with
  | modRun => exact absurd rfl hrun
  | _ => exact ⟨rfl, rfl, rfl, rfl, rfl⟩

theorem keeps_cfg (hwr : ∀ n v, i ≠ .cfgWr n v) : u.cfg = s.cfg := by
  cases h with
  | cfgWr => exact absurd rfl (hwr _ _)
  | _ => rfl

end Written

/-- An error writes the fault record and the response, and nothing else (60 R116). -/
theorem Raised.frame {s t : State} {c : Word} (h : Raised s c t) : ∃ code op info r,
    t = { s with fault := true, faultCode := code, faultOp := op, faultInfo := info, response := some r } := by
  obtain ⟨e, _, rfl⟩ := h
  exact ⟨_, _, _, _, s.raise_frame e c⟩

/-- An error is no status 0 (60 R111). -/
theorem Raised.status_ne_zero {s t : State} {c w : Word} (h : Raised s c t) (hw : t.response = some w) :
    w.extractLsb' 24 8 ≠ 0 := by
  obtain ⟨e, _, rfl⟩ := h
  rw [State.raise_response] at hw
  obtain rfl := Option.some.inj hw
  rw [responseWord_status]
  cases e <;> decide

/-- Settles O57: an error writes the record alone (60 R116), and a completed command writes what `Written` lists. -/
theorem stateIsWrittenOnlyByItsCommands : Obligations.StateIsWrittenOnlyByItsCommands := by
  intro i s t h
  rcases exec_ends i s t h with hraised | ⟨u, v, hu, _, rfl⟩
  · have hrecord : (∃ w, t.response = some w ∧ w.extractLsb' 24 8 = 0) ∨ s.fault = true →
        t.fault = s.fault ∧ t.faultCode = s.faultCode ∧ t.faultOp = s.faultOp ∧ t.faultInfo = s.faultInfo := by
      rintro (⟨w, hw, hstatus⟩ | hf)
      · exact absurd hstatus (hraised.status_ne_zero hw)
      · obtain ⟨r, rfl⟩ := hraised.of_fault hf
        exact ⟨rfl, rfl, rfl, rfl⟩
    obtain ⟨code, op, info, r, rfl⟩ := hraised.frame
    exact ⟨rfl, fun _ _ _ => ⟨rfl, rfl⟩, fun _ => ⟨rfl, rfl, rfl⟩, fun _ _ _ => rfl, fun _ _ _ => rfl,
      fun _ _ _ _ => rfl, fun _ => ⟨rfl, rfl, rfl⟩, fun _ => ⟨rfl, rfl, rfl, rfl, rfl⟩, fun _ => rfl, hrecord⟩
  · obtain ⟨hport, hrecord⟩ := hu.keeps_port_record
    exact ⟨hport, hu.keeps_banks, hu.keeps_frame, hu.keeps_rd, hu.keeps_hdr, hu.keeps_pay, hu.keeps_symbols,
      hu.keeps_samples, hu.keeps_cfg, fun _ => hrecord⟩

end Sys2Proof.Machine
end

section
/-! SUPPORT. The invariants of the machine: what FRAME_ENC, SYM_BUILD and MOD_RUN produce fits the ranges of the spec
(10 R15, R23 to R26), so that every step keeps `State.Inv` (O59) and `State.FrameConsistent` (O60). -/

namespace Sys2Proof.Machine

/-! ### What the producing commands produce -/

theorem geometry_n_legal {c : Cfg} (hc : c.Legal) : 1 ≤ (geometry c).n ∧ (geometry c).n ≤ 8 := by
  obtain ⟨_, hnSf, _⟩ := hc
  exact hnSf

theorem geometry_c_legal {c : Cfg} (hc : c.Legal) : (geometry c).c ≤ 223 := by
  obtain ⟨_, _, hcols, _⟩ := hc
  exact hcols.2

/-- W is within WB_MAX (10 R23). -/
theorem geometry_w_legal {c : Cfg} (hc : c.Legal) : (geometry c).w ≤ 1784 :=
  calc (geometry c).w ≤ (geometry c).n * (geometry c).c := Nat.sub_le _ _
    _ ≤ 8 * 223 := Nat.mul_le_mul (geometry_n_legal hc).2 (geometry_c_legal hc)

/-- SYM_BUILD feeds the written bytes and 32 parity bytes of each sub-frame (44 R94). -/
theorem length_written_parity (s : State) :
    (writtenBytes s ++ parityBytes s).length = s.wCount + 32 * s.frameN := by
  simp only [writtenBytes, parityBytes, List.length_append, List.length_flatMap, List.length_map, List.length_range,
    List.map_const', List.sum_replicate, smul_eq_mul]

theorem symbolBits_length (x : Symbol) : (symbolBits x).length = 10 := by simp [symbolBits]

theorem syncSequence_length (c : Cfg) : (syncSequence c).length = c.syncBits.toNat := by simp [syncSequence]

theorem cycleBits_length (s : State) : (cycleBits s).length = cycleLength s := by
  simp [cycleBits, cycleLength, syncSequence_length, symbolBits_length, List.length_flatMap, Nat.mul_comm]

/-- `m'` is a run `k` bits after `m`: each bit adds SPB samples and at most one reversal (45 R99). -/
def Run.After (spb k : Nat) (m m' : Run) : Prop :=
  m'.out.length = m.out.length + k * spb ∧ m'.ctr = m.ctr + k * spb ∧ m'.rev ≤ m.rev + k

theorem fskBit_after (P : Params) (spb : Nat) (m : Run) (b : Bool) : Run.After spb 1 m (fskBit P spb m b) := by
  simp [Run.After, fskBit, emit_length, emit_ctr, emit_rev]

theorem bpskBit_after (P : Params) (spb S : Nat) (m : Run) (b : Bool) :
    Run.After spb 1 m (bpskBit P spb S m b) := by
  cases b <;> simp [Run.After, bpskBit, reverse, emit_length, emit_ctr, emit_rev, attenuate_length]

theorem foldl_after {spb : Nat} {f : Run → Bool → Run} (hf : ∀ m b, Run.After spb 1 m (f m b)) (bits : List Bool)
    (m : Run) : Run.After spb bits.length m (bits.foldl f m) := by
  induction bits generalizing m with
  | nil => simp [Run.After]
  | cons b bits ih =>
    obtain ⟨hout, hctr, hrev⟩ := hf m b
    obtain ⟨hout', hctr', hrev'⟩ := ih (f m b)
    have hspb : (bits.length + 1) * spb = 1 * spb + bits.length * spb := by rw [Nat.add_comm, Nat.add_mul]
    refine ⟨?_, ?_, ?_⟩ <;> simp only [List.foldl_cons, List.length_cons] <;> omega

theorem modulate_after (P : Params) (c : Cfg) (bits : List Bool) (m : Run) :
    Run.After c.spb.toNat bits.length m (modulate P c bits m) := by
  unfold modulate
  split
  · exact foldl_after (fskBit_after P _) bits m
  · exact foldl_after (bpskBit_after P _ _) bits m

/-- A cycle has T samples and at most one reversal a bit (45 R99). -/
theorem modulate_cycle (s : State) {m : Run}
    (hm : m = modulate machineParams s.cfg (cycleBits s) { out := [], ctr := 0, phase := s.phase, rev := 0 }) :
    m.out.reverse.length = sampleTotal s ∧ m.ctr = sampleTotal s ∧ m.rev ≤ cycleLength s := by
  have hafter := modulate_after machineParams s.cfg (cycleBits s) { out := [], ctr := 0, phase := s.phase, rev := 0 }
  rw [← hm, cycleBits_length] at hafter
  obtain ⟨hout, hctr, hrev⟩ := hafter
  simp only [List.length_nil, Nat.zero_add] at hout hctr hrev
  exact ⟨by rw [List.length_reverse, hout]; rfl, by rw [hctr]; rfl, hrev⟩

/-! ### Legal banks -/

/-- A bank within its range, and never zeroed only when it has folded nothing (10 R15, R18). -/
def Bank.Legal (b : Bank) : Prop := b.cnt ≤ 223 ∧ (b.act = false → b.cnt = 0)

/-- All eight banks are legal: the clauses on banks of `State.CountsLegal` and `State.FlagsLegal`. -/
def BanksLegal (bs : Banks) : Prop := ∀ n, n < 8 → (bankOf bs n).Legal

theorem State.Inv.banksLegal {s : State} (hs : s.Inv) : BanksLegal s.banks := by
  obtain ⟨_, ⟨hcnt, _⟩, ⟨hact, _⟩, _⟩ := hs
  exact fun n hn => ⟨hcnt n hn, hact n hn⟩

theorem State.Inv.cfgLegal {s : State} (hs : s.Inv) : s.cfg.Legal := by
  obtain ⟨_, _, _, _, hcfg⟩ := hs
  exact hcfg

theorem BanksLegal.putBank {bs : Banks} (hbs : BanksLegal bs) {m : Nat} (hm : m < 8) {b : Bank} (hb : b.Legal) :
    BanksLegal (putBank bs m b) := by
  intro n hn
  rw [bankOf_putBank _ _ _ _ hm]
  split
  · exact hb
  · exact hbs n hn

theorem freshBank_legal : freshBank.Legal := ⟨Nat.zero_le _, fun _ => rfl⟩

/-- A bank with room stays legal under one byte more (41 R66). -/
theorem updateBank_legal (P : Params) {k : Bank} (hk : k.Legal) (hact : k.act = true) (hcnt : k.cnt ≠ 223) (b : Byte) :
    (updateBank P k b).Legal :=
  ⟨Nat.lt_of_le_of_ne hk.1 hcnt, fun h => absurd (hact.symm.trans h) (by decide)⟩

theorem encodedBank_legal (P : Params) (bytes : List Byte) (h : bytes.length ≤ 223) : (encodedBank P bytes).Legal :=
  ⟨h, fun hact => absurd hact (by simp [encodedBank])⟩

namespace Written

variable {i : Instr} {s u : State}

theorem banksLegal (h : Written i s u) (hs : s.Inv) : BanksLegal u.banks := by
  have hbanks := hs.banksLegal
  cases h with
  | rsReset b => exact hbanks.putBank b.isLt freshBank_legal
  | rsUpdate b v _ hact hcnt =>
    exact hbanks.putBank b.isLt (updateBank_legal _ (hbanks _ b.isLt) hact hcnt _)
  | frameEnc _ hg hfit hdone =>
    obtain ⟨_, _, _, _, hcfg⟩ := hs
    subst hg hdone
    intro n hn
    show (bankOf (distribute _ _ _ _ _).1 n).Legal
    rw [bankOf_encodedFrame _ hfit (geometry_n_legal hcfg).2]
    split
    · exact encodedBank_legal _ _ ((foldedBy_length_le _ hfit _ _).trans (geometry_c_legal hcfg))
    · exact hbanks n hn
  | _ => exact hbanks

/-! ### The parts of the invariant -/

theorem memoryLegal (h : Written i s u) (hs : s.Inv) : u.MemoryLegal := by
  obtain ⟨⟨hhdr, hpay, hwb, hsym, hsmp⟩, ⟨_, hwCount, hframeN, _⟩, _, _, hcfg⟩ := hs
  cases h with
  | hdrWr b _ hk => exact ⟨⟨Buf.wf_write _ _ _ hhdr.1, Buf.below_write _ _ _ _ hk hhdr.2⟩, hpay, hwb, hsym, hsmp⟩
  | hdrPack =>
    exact ⟨⟨Buf.wf_fill _ _ hhdr.1, Buf.below_fill _ _ _ (packedHeader_length s.cfg).le hhdr.2⟩, hpay, hwb, hsym,
      hsmp⟩
  | payWr b _ hk => exact ⟨hhdr, ⟨Buf.wf_write _ _ _ hpay.1, Buf.below_write _ _ _ _ hk hpay.2⟩, hwb, hsym, hsmp⟩
  | payPackA v _ hk | payPackB v _ hk =>
    exact ⟨hhdr, ⟨Buf.wf_write _ _ _ (Buf.wf_write _ _ _ hpay.1),
      Buf.below_write _ _ _ _ hk (Buf.below_write _ _ _ _ (by omega) hpay.2)⟩, hwb, hsym, hsmp⟩
  | bufClr => exact ⟨⟨Buf.wf_nil, Buf.below_nil 6⟩, ⟨Buf.wf_nil, Buf.below_nil 2048⟩, hwb, hsym, hsmp⟩
  | frameEnc _ hg hfit hdone =>
    subst hg hdone
    have hlength := geometry_w_legal hcfg
    rw [← Geometry.slots_length _ hfit, ← distribute_bytes_length] at hlength
    exact ⟨hhdr, hpay, ⟨Buf.wf_fill _ _ hwb.1, Buf.below_fill _ _ _ hlength hwb.2⟩, hsym, hsmp⟩
  | symBuild _ _ hbuilt =>
    subst hbuilt
    refine ⟨hhdr, hpay, hwb, ⟨Buf.wf_fill _ _ hsym.1, Buf.below_fill _ _ _ ?_ hsym.2⟩, hsmp⟩
    rw [encodeBytes_length, length_written_parity]
    omega
  | modRun _ _ htotal hm =>
    obtain ⟨hout, _⟩ := modulate_cycle s hm
    exact ⟨hhdr, hpay, hwb, hsym, Buf.wf_fill _ _ hsmp.1, Buf.below_fill _ _ _ (hout ▸ htotal) hsmp.2⟩
  | _ => exact ⟨hhdr, hpay, hwb, hsym, hsmp⟩

theorem countsLegal (h : Written i s u) (hs : s.Inv) : u.CountsLegal := by
  have hcnt : ∀ n, n < 8 → (bankOf u.banks n).cnt ≤ 223 := fun n hn => (h.banksLegal hs n hn).1
  obtain ⟨_, ⟨_, hwCount, hframeN, hsymCount, hsmpCount, hrevCount⟩, _, _, hcfg⟩ := hs
  refine ⟨hcnt, ?_⟩
  cases h with
  | frameEnc _ hg =>
    subst hg
    exact ⟨geometry_w_legal hcfg, (geometry_n_legal hcfg).2, hsymCount, hsmpCount, hrevCount⟩
  | symBuild _ _ hbuilt =>
    subst hbuilt
    refine ⟨hwCount, hframeN, ?_, hsmpCount, hrevCount⟩
    show (encodeBytes _ _ _).1.length ≤ 2040
    rw [encodeBytes_length, length_written_parity]
    omega
  | modRun _ _ htotal hm =>
    obtain ⟨_, hctr, hrev⟩ := modulate_cycle s hm
    refine ⟨hwCount, hframeN, hsymCount, hctr.trans_le htotal, hrev.trans ?_⟩
    unfold cycleLength
    omega
  | _ => exact ⟨hwCount, hframeN, hsymCount, hsmpCount, hrevCount⟩

theorem flagsLegal (h : Written i s u) (hs : s.Inv) : u.FlagsLegal := by
  have hact : ∀ n, n < 8 → (bankOf u.banks n).act = false → (bankOf u.banks n).cnt = 0 :=
    fun n hn => (h.banksLegal hs n hn).2
  obtain ⟨_, _, ⟨_, hframe, hsymbols⟩, _, hcfg⟩ := hs
  refine ⟨hact, ?_⟩
  cases h with
  | rsReset | rsUpdate => exact ⟨fun hvalid => absurd hvalid Bool.false_ne_true, hsymbols⟩
  | frameEnc _ hg hfit hdone =>
    subst hg hdone
    obtain ⟨hpos, hle⟩ := geometry_n_legal hcfg
    refine ⟨fun _ => ⟨hpos, fun n hn => ?_⟩, hsymbols⟩
    have hn : n < (geometry s.cfg).n := hn
    show (bankOf (distribute _ _ _ _ _).1 n).act = true
    rw [bankOf_encodedFrame _ hfit hle, if_pos hn]
    rfl
  | symBuild _ hvalid hbuilt =>
    subst hbuilt
    obtain ⟨hpos, _⟩ := hframe hvalid
    refine ⟨hframe, fun _ => ?_⟩
    show 32 ≤ (encodeBytes _ _ _).1.length
    rw [encodeBytes_length, length_written_parity]
    omega
  | _ => exact ⟨hframe, hsymbols⟩

theorem recordLegal (h : Written i s u) (hs : s.Inv) : u.RecordLegal := by
  obtain ⟨_, _, _, hrecord, _⟩ := hs
  obtain ⟨_, hfault, hcode, hop, hinfo⟩ := h.keeps_port_record
  unfold State.RecordLegal
  rwa [hfault, hcode, hop, hinfo]

theorem cfgLegal (h : Written i s u) (hs : s.Inv) : u.cfg.Legal := by
  obtain ⟨_, _, _, _, hcfg⟩ := hs
  cases h with
  | cfgWr _ _ hlegal => exact hcfg.writeCfg _ _ hlegal
  | _ => exact hcfg

theorem inv (h : Written i s u) (hs : s.Inv) : u.Inv :=
  ⟨h.memoryLegal hs, h.countsLegal hs, h.flagsLegal hs, h.recordLegal hs, h.cfgLegal hs⟩

end Written

/-! ### Every step keeps the invariant -/

/-- The codes an error can have while FAULT = 0 (60 R111, R115). -/
theorem ErrKind.code_range (e : ErrKind) (h : e ≠ .faulted) : 1 ≤ e.code.toNat ∧ e.code.toNat ≤ 4 := by
  cases e with
  | faulted => exact absurd rfl h
  | _ => decide

/-- An error fills the record once, and leaves everything else of the invariant (10 R29, 60 R116). -/
theorem Raised.inv {s t : State} {c : Word} (h : Raised s c t) (hs : s.Inv) : t.Inv := by
  obtain ⟨e, he, rfl⟩ := h
  cases hf : s.fault with
  | true =>
    rw [State.raise_of_fault s e c hf]
    exact hs
  | false =>
    rw [State.raise_of_no_fault s e c hf]
    obtain ⟨hmemory, hcounts, hflags, _, hcfg⟩ := hs
    exact ⟨hmemory, hcounts, hflags, ⟨(fun h => nomatch h), fun _ => e.code_range (he hf)⟩, hcfg⟩

theorem Completed.inv {i : Instr} {s t : State} (h : Completed i s t) (hs : s.Inv) : t.Inv := by
  obtain ⟨u, v, hu, _, rfl⟩ := h
  exact hu.inv hs

theorem reset_inv : State.reset.Inv := by
  unfold State.Inv State.MemoryLegal State.CountsLegal State.FlagsLegal State.RecordLegal Cfg.Legal
  decide

/-- Settles O59: each way a step ends keeps the invariant. -/
theorem everyStepKeepsTheInvariant : Obligations.EveryStepKeepsTheInvariant := fun _ _ hs =>
  step_preserves reset_inv (fun _ _ hs => hs) (fun _ _ _ hs h => h.inv hs) (fun _ _ _ hs h => h.inv hs) hs

/-! ### Every step keeps the meaning of FRAME_VALID -/

/-- FRAME_ENC leaves one complete frame in WB and the banks: the skipped slot is the hole of the geometry (43 R90). -/
theorem frameConsistent_encodedFrame {s : State} (hcfg : s.cfg.Legal) {g : Geometry} (hg : g = geometry s.cfg)
    (hfit : g.inconsistent = false) {done : Banks × List Byte}
    (hdone : done = distribute machineParams (frameByte g s.hdr s.pay) g.slots 0 (resetBanks s.banks g.n)) :
    (((s.withBanks done.1).withFrame (Buf.fill s.wb done.2) g.w g.n).withFrameValid true).FrameConsistent := by
  have hn : g.n ≤ 8 := hg ▸ (geometry_n_legal hcfg).2
  intro _
  refine ⟨g.c, g.hole, g.w_eq hfit, fun sub hsub => ?_⟩
  have hsub : sub < g.n := hsub
  have hbytes : foldedBy (Buf.read (Buf.fill s.wb done.2)) g.w g.n g.hole sub =
      foldedBy (frameByte g s.hdr s.pay) g.w g.n g.hole sub :=
    foldedBy_congr (fun k hk => hdone ▸ read_encodedFrame g hfit _ _ _ k hk) _ _ _
  show bankOf done.1 sub = encodedBank machineParams (foldedBy (Buf.read (Buf.fill s.wb done.2)) g.w g.n g.hole sub)
  rw [hbytes, hdone, bankOf_encodedFrame g hfit hn, if_pos hsub]

/-- RS_RESET and RS_UPDATE clear FRAME_VALID, FRAME_ENC makes the frame, and no other command touches it (10 R23). -/
theorem Written.frameConsistent {i : Instr} {s u : State} (h : Written i s u) (hcfg : s.cfg.Legal)
    (hs : s.FrameConsistent) : u.FrameConsistent := by
  cases h with
  | rsReset | rsUpdate => exact fun hvalid => absurd hvalid Bool.false_ne_true
  | frameEnc _ hg hfit hdone => exact frameConsistent_encodedFrame hcfg hg hfit hdone
  | _ => exact hs

theorem Raised.frameConsistent {s t : State} {c : Word} (h : Raised s c t) (hs : s.FrameConsistent) :
    t.FrameConsistent := by
  obtain ⟨_, _, _, _, rfl⟩ := h.frame
  exact hs

theorem Completed.frameConsistent {i : Instr} {s t : State} (h : Completed i s t) (hcfg : s.cfg.Legal)
    (hs : s.FrameConsistent) : t.FrameConsistent := by
  obtain ⟨u, v, hu, _, rfl⟩ := h
  exact hu.frameConsistent hcfg hs

theorem reset_frameConsistent : State.reset.FrameConsistent := fun hvalid => absurd hvalid Bool.false_ne_true

/-- Settles O60: each way a step ends keeps the frame, given the registers' ranges that the invariant holds. -/
theorem everyStepKeepsTheFrameConsistent : Obligations.EveryStepKeepsTheFrameConsistent := by
  intro s t hinv hframe h
  have hstep : t.Inv ∧ t.FrameConsistent :=
    step_preserves (P := fun s => s.Inv ∧ s.FrameConsistent) ⟨reset_inv, reset_frameConsistent⟩ (fun _ _ hs => hs)
      (fun _ _ _ hs hraised => ⟨hraised.inv hs.1, hraised.frameConsistent hs.2⟩)
      (fun _ _ _ hs hdone => ⟨hdone.inv hs.1, hdone.frameConsistent hs.1.cfgLegal hs.2⟩) ⟨hinv, hframe⟩ h
  exact hstep.2

end Sys2Proof.Machine
end

section
/-! SUPPORT. The read commands (spec 20 R38): a read rule is guards and a value, and neither looks at the response the
port holds, so that a read finds after itself what it found before (O56). -/

namespace Sys2Proof.Machine

/-- A rule that completes without writing the state, and replies the same whatever response the port holds. -/
def ReadOnly (rule : State → Reply) : Prop :=
  ∀ s u v, rule s = .ok (u, v) → u = s ∧ ∀ r, rule (s.withResponse r) = .ok (s.withResponse r, v)

/-! ### The read rules -/

theorem ReadOnly.value {f : State → Half} (hf : ∀ s r, f (s.withResponse r) = f s) :
    ReadOnly (fun s => .ok (s, f s)) := by
  rintro s _ _ ⟨⟩
  exact ⟨rfl, fun r => by simp only [hf]⟩

/-- A guard that does not look at the response, before a read. -/
theorem ReadOnly.guard {g : State → Prop} {dec : DecidablePred g} {e : ErrKind} {rule : State → Reply}
    (hg : ∀ s r, g (s.withResponse r) ↔ g s) (hrule : ReadOnly rule) :
    ReadOnly (fun s => if g s then .error e else rule s) := by
  intro s u v h
  by_cases hs : g s
  · simp [hs] at h
  · obtain ⟨hu, hrepeat⟩ := hrule s u v (by simpa [hs] using h)
    exact ⟨hu, fun r => by simpa [hg, hs] using hrepeat r⟩

@[simp] theorem readReg_withResponse (s : State) (r : Word) (reg : Reg) :
    readReg (s.withResponse r) reg = readReg s reg := by
  cases reg with
  | ro stat => cases stat <;> rfl
  | rw _ => rfl

theorem cfgRdRule_readOnly (n : Byte) : ReadOnly (cfgRdRule machineParams n) := by
  unfold cfgRdRule
  cases regOfNumber machineParams n with
  | none => exact fun _ _ _ h => nomatch h
  | some reg => exact .value fun s r => readReg_withResponse s r reg

theorem rsRdRule_readOnly (b : BitVec 3) (k : BitVec 5) : ReadOnly (rsRdRule machineParams b k) :=
  .guard (fun _ _ => Iff.rfl) (.guard (fun _ _ => Iff.rfl) (.value fun _ _ => rfl))

theorem hdrRdRule_readOnly (k : BitVec 24) : ReadOnly (hdrRdRule k) :=
  .guard (fun _ _ => Iff.rfl) (.value fun _ _ => rfl)

theorem payRdRule_readOnly (k : BitVec 24) : ReadOnly (payRdRule machineParams k) :=
  .guard (fun _ _ => Iff.rfl) (.value fun _ _ => rfl)

theorem wbRdRule_readOnly (k : BitVec 24) : ReadOnly (wbRdRule k) :=
  .guard (fun _ _ => Iff.rfl) (.guard (fun _ _ => Iff.rfl) (.value fun _ _ => rfl))

theorem symRdRule_readOnly (k : BitVec 24) : ReadOnly (symRdRule k) :=
  .guard (fun _ _ => Iff.rfl) (.guard (fun _ _ => Iff.rfl) (.value fun _ _ => rfl))

theorem smpRdRule_readOnly (k : BitVec 24) : ReadOnly (smpRdRule k) :=
  .guard (fun _ _ => Iff.rfl) (.guard (fun _ _ => Iff.rfl) (.value fun _ _ => rfl))

theorem smpRdbRule_readOnly (k : BitVec 24) : ReadOnly (smpRdbRule k) :=
  .guard (fun _ _ => Iff.rfl) (.guard (fun _ _ => Iff.rfl) (.value fun _ _ => rfl))

/-! ### Serving a read -/

/-- An error is never answered with status 0 (60 R111). -/
theorem State.raise_status_ne_zero (s : State) (e : ErrKind) (c : Word) :
    ¬ ∀ w, (s.raise e c).response = some w → w.extractLsb' 24 8 = 0 := by
  intro hstatus
  have hcode : e.code = 0 := by rw [← responseWord_status e.code 0, hstatus _ (s.raise_response e c)]
  cases e <;> exact absurd hcode (by decide)

namespace ReadOnly

variable {i : Instr} {rule : State → Reply} {s t : State} (hrule : ReadOnly rule)

include hrule

/-- A read served with status 0 has written the response alone, and is served the same again. -/
theorem serve_repeats (h : serve i rule s = .next t)
    (hstatus : ∀ w, t.response = some w → w.extractLsb' 24 8 = 0) :
    t = { s with response := t.response } ∧ serve i rule t = .next t := by
  rcases serve_cases i rule s t h with ⟨_, rfl⟩ | ⟨hf, u, v, hr, rfl⟩ | ⟨_, _, _, rfl⟩
  · exact absurd hstatus (s.raise_status_ne_zero _ _)
  · obtain ⟨rfl, hrepeat⟩ := hrule s u v hr
    exact ⟨rfl, serve_of_ok i rule (u.respond v) (u.respond v) v hf (hrepeat _)⟩
  · exact absurd hstatus (s.raise_status_ne_zero _ _)

/-- The same for CFG_RD, which is served in the faulted state too. -/
theorem serveAlways_repeats (h : serveAlways i rule s = .next t)
    (hstatus : ∀ w, t.response = some w → w.extractLsb' 24 8 = 0) :
    t = { s with response := t.response } ∧ serveAlways i rule t = .next t := by
  rcases serveAlways_cases i rule s t h with ⟨u, v, hr, rfl⟩ | ⟨_, _, rfl⟩
  · obtain ⟨rfl, hrepeat⟩ := hrule s u v hr
    exact ⟨rfl, congrArg (answer i _) (hrepeat _)⟩
  · exact absurd hstatus (s.raise_status_ne_zero _ _)

end ReadOnly

/-- Settles O56: each of the eight commands serves a read rule. -/
theorem readsHaveNoSideEffect : Obligations.ReadsHaveNoSideEffect := by
  rintro i s t (⟨n, rfl⟩ | ⟨b, k, rfl⟩ | ⟨k, rfl⟩ | ⟨k, rfl⟩ | ⟨k, rfl⟩ | ⟨k, rfl⟩ | ⟨k, rfl⟩ | ⟨k, rfl⟩) h hstatus
  · exact (cfgRdRule_readOnly n).serveAlways_repeats h hstatus
  · exact (rsRdRule_readOnly b k).serve_repeats h hstatus
  · exact (hdrRdRule_readOnly k).serve_repeats h hstatus
  · exact (payRdRule_readOnly k).serve_repeats h hstatus
  · exact (wbRdRule_readOnly k).serve_repeats h hstatus
  · exact (symRdRule_readOnly k).serve_repeats h hstatus
  · exact (smpRdRule_readOnly k).serve_repeats h hstatus
  · exact (smpRdbRule_readOnly k).serve_repeats h hstatus

end Sys2Proof.Machine
end

section
/-! SUPPORT. Encoding (spec 30 R45 to R50). A word is the concatenation of its fields; so each format reads exactly the
words that its commands encode to, and the decoder and the encoder are inverse to each other (O5, O6). A row of the
opcode map keeps the opcode byte and the reserved fields of a word, so it matches when its format finds them as it
requires (O7). -/

namespace Sys2Proof

/-! ### The fields of a word -/

/-- A field of a field is a field. -/
theorem extractLsb'_extractLsb' {w : Nat} (x : BitVec w) (start len start' len' : Nat) (h : start' + len' ≤ len) :
    (x.extractLsb' start len).extractLsb' start' len' = x.extractLsb' (start + start') len' := by
  ext k hk
  simp [show start' + k < len by omega, Nat.add_assoc]

section Fields

variable {k l m n o : Nat}

/-- Concatenating two fields is the inverse of taking them. -/
theorem append_eq_iff (a : BitVec m) (b : BitVec n) (x : BitVec (m + n)) :
    a ++ b = x ↔ x.extractLsb' n m = a ∧ x.extractLsb' 0 n = b := by
  constructor
  · rintro rfl
    exact ⟨BitVec.extractLsb'_append_eq_left, BitVec.extractLsb'_append_eq_right⟩
  · rintro ⟨rfl, rfl⟩
    exact BitVec.extractLsb'_append_extractLsb'

theorem append₃_eq_iff (a : BitVec l) (b : BitVec m) (c : BitVec n) (x : BitVec (l + m + n)) :
    a ++ b ++ c = x ↔ x.extractLsb' (n + m) l = a ∧ x.extractLsb' n m = b ∧ x.extractLsb' 0 n = c := by
  rw [append_eq_iff, eq_comm (b := a ++ b), append_eq_iff, extractLsb'_extractLsb' _ _ _ _ _ (by omega),
    extractLsb'_extractLsb' _ _ _ _ _ (by omega), and_assoc, Nat.add_zero]

theorem append₄_eq_iff (a : BitVec k) (b : BitVec l) (c : BitVec m) (d : BitVec n) (x : BitVec (k + l + m + n)) :
    a ++ b ++ c ++ d = x ↔ x.extractLsb' (n + (m + l)) k = a ∧ x.extractLsb' (n + m) l = b ∧ x.extractLsb' n m = c ∧
      x.extractLsb' 0 n = d := by
  rw [append_eq_iff, eq_comm (b := a ++ b ++ c), append₃_eq_iff, extractLsb'_extractLsb' _ _ _ _ _ (by omega),
    extractLsb'_extractLsb' _ _ _ _ _ (by omega), extractLsb'_extractLsb' _ _ _ _ _ (by omega), Nat.add_zero,
    and_assoc, and_assoc]

theorem append₅_eq_iff (a : BitVec k) (b : BitVec l) (c : BitVec m) (d : BitVec n) (e : BitVec o)
    (x : BitVec (k + l + m + n + o)) :
    a ++ b ++ c ++ d ++ e = x ↔ x.extractLsb' (o + (n + (m + l))) k = a ∧ x.extractLsb' (o + (n + m)) l = b ∧
      x.extractLsb' (o + n) m = c ∧ x.extractLsb' o n = d ∧ x.extractLsb' 0 o = e := by
  rw [append_eq_iff, eq_comm (b := a ++ b ++ c ++ d), append₄_eq_iff, extractLsb'_extractLsb' _ _ _ _ _ (by omega),
    extractLsb'_extractLsb' _ _ _ _ _ (by omega), extractLsb'_extractLsb' _ _ _ _ _ (by omega),
    extractLsb'_extractLsb' _ _ _ _ _ (by omega), Nat.add_zero, and_assoc, and_assoc, and_assoc]

end Fields

/-! The ways in which the formats of 30 R46 cut a word, each named by the widths of its fields. -/

theorem word_8_24_iff (op : Byte) (x : BitVec 24) (c : Word) :
    op ++ x = c ↔ opcodeOf c = op ∧ c.extractLsb' 0 24 = x := append_eq_iff op x c

theorem word_8_8_16_iff (op x : Byte) (v : Half) (c : Word) :
    op ++ x ++ v = c ↔ opcodeOf c = op ∧ c.extractLsb' 16 8 = x ∧ c.extractLsb' 0 16 = v := append₃_eq_iff op x v c

theorem word_8_12_12_iff (op : Byte) (x y : BitVec 12) (c : Word) :
    op ++ x ++ y = c ↔ opcodeOf c = op ∧ c.extractLsb' 12 12 = x ∧ c.extractLsb' 0 12 = y := append₃_eq_iff op x y c

theorem word_8_4_12_8_iff (op : Byte) (z : BitVec 4) (x : BitVec 12) (y : Byte) (c : Word) :
    op ++ z ++ x ++ y = c ↔ opcodeOf c = op ∧ c.extractLsb' 20 4 = z ∧ c.extractLsb' 8 12 = x ∧
      c.extractLsb' 0 8 = y := append₄_eq_iff op z x y c

theorem word_8_5_3_16_iff (op : Byte) (z : BitVec 5) (b : BitVec 3) (v : Half) (c : Word) :
    op ++ z ++ b ++ v = c ↔ opcodeOf c = op ∧ c.extractLsb' 19 5 = z ∧ c.extractLsb' 16 3 = b ∧
      c.extractLsb' 0 16 = v := append₄_eq_iff op z b v c

theorem word_8_5_3_11_5_iff (op : Byte) (z : BitVec 5) (b : BitVec 3) (z' : BitVec 11) (x : BitVec 5) (c : Word) :
    op ++ z ++ b ++ z' ++ x = c ↔ opcodeOf c = op ∧ c.extractLsb' 19 5 = z ∧ c.extractLsb' 16 3 = b ∧
      c.extractLsb' 5 11 = z' ∧ c.extractLsb' 0 5 = x := append₅_eq_iff op z b z' x c

/-! ### The formats (30 R46) -/

theorem whenZero_eq_ok_iff {α : Type} (c : Word) (z : Bool) (v u : α) :
    whenZero c z v = .ok u ↔ z = true ∧ v = u := by
  cases z <;> simp [whenZero]

theorem opcodeOf_of_toNat {c : Word} {n : Nat} (h : (opcodeOf c).toNat = n) : opcodeOf c = BitVec.ofNat 8 n := by
  rw [← h, BitVec.ofNat_toNat, BitVec.setWidth_eq]

/-! A format gives a command exactly when the word is that command's encoding and the command is one of the format's
row. The hypothesis `hf` says how the row's commands are encoded. -/

section Formats

variable {c : Word} {n : Nat} {i : Instr} (hn : (opcodeOf c).toNat = n)

include hn

theorem formatZ_eq_ok_iff {i₀ : Instr} (hf : encode i₀ = BitVec.ofNat 8 n ++ 0#24) :
    formatZ c i₀ = .ok i ↔ encode i = c ∧ i₀ = i := by
  simp only [formatZ, whenZero_eq_ok_iff, beq_iff_eq]
  constructor
  · rintro ⟨hz, rfl⟩
    exact ⟨hf.trans ((word_8_24_iff ..).mpr ⟨opcodeOf_of_toNat hn, hz⟩), rfl⟩
  · rintro ⟨hc, rfl⟩
    exact ⟨((word_8_24_iff ..).mp (hf.symm.trans hc)).2, rfl⟩

theorem formatR_eq_ok_iff {f : BitVec 8 → Instr} (hf : ∀ reg, encode (f reg) = BitVec.ofNat 8 n ++ reg ++ 0#16) :
    formatR c f = .ok i ↔ encode i = c ∧ ∃ reg, f reg = i := by
  simp only [formatR, whenZero_eq_ok_iff, beq_iff_eq]
  constructor
  · rintro ⟨hz, rfl⟩
    exact ⟨(hf _).trans ((word_8_8_16_iff ..).mpr ⟨opcodeOf_of_toNat hn, rfl, hz⟩), _, rfl⟩
  · rintro ⟨hc, reg, rfl⟩
    obtain ⟨-, rfl, hz⟩ := (word_8_8_16_iff ..).mp ((hf _).symm.trans hc)
    exact ⟨hz, rfl⟩

theorem formatRV_eq_ok_iff {f : BitVec 8 → BitVec 16 → Instr}
    (hf : ∀ reg v, encode (f reg v) = BitVec.ofNat 8 n ++ reg ++ v) :
    formatRV c f = .ok i ↔ encode i = c ∧ ∃ reg v, f reg v = i := by
  simp only [formatRV, Except.ok.injEq]
  constructor
  · rintro rfl
    exact ⟨(hf ..).trans ((word_8_8_16_iff ..).mpr ⟨opcodeOf_of_toNat hn, rfl, rfl⟩), _, _, rfl⟩
  · rintro ⟨hc, reg, v, rfl⟩
    obtain ⟨-, rfl, rfl⟩ := (word_8_8_16_iff ..).mp ((hf ..).symm.trans hc)
    rfl

theorem formatV_eq_ok_iff {f : BitVec 16 → Instr} (hf : ∀ v, encode (f v) = BitVec.ofNat 8 n ++ 0#8 ++ v) :
    formatV c f = .ok i ↔ encode i = c ∧ ∃ v, f v = i := by
  simp only [formatV, whenZero_eq_ok_iff, beq_iff_eq]
  constructor
  · rintro ⟨hz, rfl⟩
    exact ⟨(hf _).trans ((word_8_8_16_iff ..).mpr ⟨opcodeOf_of_toNat hn, hz, rfl⟩), _, rfl⟩
  · rintro ⟨hc, v, rfl⟩
    obtain ⟨-, hz, rfl⟩ := (word_8_8_16_iff ..).mp ((hf _).symm.trans hc)
    exact ⟨hz, rfl⟩

theorem formatS_eq_ok_iff {f : BitVec 3 → Instr}
    (hf : ∀ b, encode (f b) = BitVec.ofNat 8 n ++ 0#5 ++ b ++ 0#16) :
    formatS c f = .ok i ↔ encode i = c ∧ ∃ b, f b = i := by
  simp only [formatS, whenZero_eq_ok_iff, Bool.and_eq_true, beq_iff_eq]
  constructor
  · rintro ⟨⟨hz, hz'⟩, rfl⟩
    exact ⟨(hf _).trans ((word_8_5_3_16_iff ..).mpr ⟨opcodeOf_of_toNat hn, hz, rfl, hz'⟩), _, rfl⟩
  · rintro ⟨hc, b, rfl⟩
    obtain ⟨-, hz, rfl, hz'⟩ := (word_8_5_3_16_iff ..).mp ((hf _).symm.trans hc)
    exact ⟨⟨hz, hz'⟩, rfl⟩

theorem formatSV_eq_ok_iff {f : BitVec 3 → BitVec 16 → Instr}
    (hf : ∀ b v, encode (f b v) = BitVec.ofNat 8 n ++ 0#5 ++ b ++ v) :
    formatSV c f = .ok i ↔ encode i = c ∧ ∃ b v, f b v = i := by
  simp only [formatSV, whenZero_eq_ok_iff, beq_iff_eq]
  constructor
  · rintro ⟨hz, rfl⟩
    exact ⟨(hf ..).trans ((word_8_5_3_16_iff ..).mpr ⟨opcodeOf_of_toNat hn, hz, rfl, rfl⟩), _, _, rfl⟩
  · rintro ⟨hc, b, v, rfl⟩
    obtain ⟨-, hz, rfl, rfl⟩ := (word_8_5_3_16_iff ..).mp ((hf ..).symm.trans hc)
    exact ⟨hz, rfl⟩

theorem formatSI_eq_ok_iff {f : BitVec 3 → BitVec 5 → Instr}
    (hf : ∀ b k, encode (f b k) = BitVec.ofNat 8 n ++ 0#5 ++ b ++ 0#11 ++ k) :
    formatSI c f = .ok i ↔ encode i = c ∧ ∃ b k, f b k = i := by
  simp only [formatSI, whenZero_eq_ok_iff, Bool.and_eq_true, beq_iff_eq]
  constructor
  · rintro ⟨⟨hz, hz'⟩, rfl⟩
    exact ⟨(hf ..).trans ((word_8_5_3_11_5_iff ..).mpr ⟨opcodeOf_of_toNat hn, hz, rfl, hz', rfl⟩), _, _, rfl⟩
  · rintro ⟨hc, b, k, rfl⟩
    obtain ⟨-, hz, rfl, hz', rfl⟩ := (word_8_5_3_11_5_iff ..).mp ((hf ..).symm.trans hc)
    exact ⟨⟨hz, hz'⟩, rfl⟩

theorem formatIB_eq_ok_iff {f : BitVec 12 → BitVec 8 → Instr}
    (hf : ∀ k b, encode (f k b) = BitVec.ofNat 8 n ++ 0#4 ++ k ++ b) :
    formatIB c f = .ok i ↔ encode i = c ∧ ∃ k b, f k b = i := by
  simp only [formatIB, whenZero_eq_ok_iff, beq_iff_eq]
  constructor
  · rintro ⟨hz, rfl⟩
    exact ⟨(hf ..).trans ((word_8_4_12_8_iff ..).mpr ⟨opcodeOf_of_toNat hn, hz, rfl, rfl⟩), _, _, rfl⟩
  · rintro ⟨hc, k, b, rfl⟩
    obtain ⟨-, hz, rfl, rfl⟩ := (word_8_4_12_8_iff ..).mp ((hf ..).symm.trans hc)
    exact ⟨hz, rfl⟩

theorem formatIV_eq_ok_iff {f : BitVec 12 → BitVec 12 → Instr}
    (hf : ∀ k v, encode (f k v) = BitVec.ofNat 8 n ++ k ++ v) :
    formatIV c f = .ok i ↔ encode i = c ∧ ∃ k v, f k v = i := by
  simp only [formatIV, Except.ok.injEq]
  constructor
  · rintro rfl
    exact ⟨(hf ..).trans ((word_8_12_12_iff ..).mpr ⟨opcodeOf_of_toNat hn, rfl, rfl⟩), _, _, rfl⟩
  · rintro ⟨hc, k, v, rfl⟩
    obtain ⟨-, rfl, rfl⟩ := (word_8_12_12_iff ..).mp ((hf ..).symm.trans hc)
    rfl

theorem formatI_eq_ok_iff {f : BitVec 24 → Instr} (hf : ∀ k, encode (f k) = BitVec.ofNat 8 n ++ k) :
    formatI c f = .ok i ↔ encode i = c ∧ ∃ k, f k = i := by
  simp only [formatI, Except.ok.injEq]
  constructor
  · rintro rfl
    exact ⟨(hf _).trans ((word_8_24_iff ..).mpr ⟨opcodeOf_of_toNat hn, rfl⟩), _, rfl⟩
  · rintro ⟨hc, k, rfl⟩
    obtain ⟨-, rfl⟩ := (word_8_24_iff ..).mp ((hf _).symm.trans hc)
    rfl

end Formats

/-! ### The round trips -/

theorem encode_encOrEof (v : Half) : encode (encOrEof v) = 0x30#8 ++ 0#8 ++ v := by
  unfold encOrEof
  split
  · next hv => rw [hv]; rfl
  · rfl

theorem encOrEof_of_ne {v : Half} (hv : v ≠ Config.eofMarker) : encOrEof v = .enc v := if_neg hv

theorem opcodeOf_encode : ∀ i, opcodeOf (encode i) = Laws.opcodeOfRow i
  | .nop => Laws.EncodedOpcode.nop
  | .cfgRd reg => Laws.EncodedOpcode.cfgRd reg
  | .cfgWr reg v => Laws.EncodedOpcode.cfgWr reg v
  | .gfLog v => Laws.EncodedOpcode.gfLog v
  | .gfAlog v => Laws.EncodedOpcode.gfAlog v
  | .gfModexp v => Laws.EncodedOpcode.gfModexp v
  | .rsReset b => Laws.EncodedOpcode.rsReset b
  | .rsUpdate b v => Laws.EncodedOpcode.rsUpdate b v
  | .rsRd b k => Laws.EncodedOpcode.rsRd b k
  | .encEof => Laws.EncodedOpcode.encEof
  | .enc v => Laws.EncodedOpcode.enc v
  | .hdrWr k b => Laws.EncodedOpcode.hdrWr k b
  | .hdrRd k => Laws.EncodedOpcode.hdrRd k
  | .payWr k b => Laws.EncodedOpcode.payWr k b
  | .payRd k => Laws.EncodedOpcode.payRd k
  | .hdrPack => Laws.EncodedOpcode.hdrPack
  | .payPackA k v => Laws.EncodedOpcode.payPackA k v
  | .payPackB k v => Laws.EncodedOpcode.payPackB k v
  | .bufClr => Laws.EncodedOpcode.bufClr
  | .frameEnc => Laws.EncodedOpcode.frameEnc
  | .wbRd k => Laws.EncodedOpcode.wbRd k
  | .symBuild => Laws.EncodedOpcode.symBuild
  | .symRd k => Laws.EncodedOpcode.symRd k
  | .modRun => Laws.EncodedOpcode.modRun
  | .smpRd k => Laws.EncodedOpcode.smpRd k
  | .smpRdb k => Laws.EncodedOpcode.smpRdb k

/-- Settles O5: the opcode of the encoded word selects the command's format, which reads the fields back. -/
theorem decodeEncodeRoundTrip : Obligations.DecodeEncodeRoundTrip := by
  intro i hwf
  have hn := congrArg BitVec.toNat (opcodeOf_encode i)
  unfold decode
  rw [hn]
  cases i with
  | nop => exact (formatZ_eq_ok_iff hn rfl).mpr ⟨rfl, rfl⟩
  | cfgRd reg => exact (formatR_eq_ok_iff hn fun _ => rfl).mpr ⟨rfl, reg, rfl⟩
  | cfgWr reg v => exact (formatRV_eq_ok_iff hn fun _ _ => rfl).mpr ⟨rfl, reg, v, rfl⟩
  | gfLog v => exact (formatV_eq_ok_iff hn fun _ => rfl).mpr ⟨rfl, v, rfl⟩
  | gfAlog v => exact (formatV_eq_ok_iff hn fun _ => rfl).mpr ⟨rfl, v, rfl⟩
  | gfModexp v => exact (formatV_eq_ok_iff hn fun _ => rfl).mpr ⟨rfl, v, rfl⟩
  | rsReset b => exact (formatS_eq_ok_iff hn fun _ => rfl).mpr ⟨rfl, b, rfl⟩
  | rsUpdate b v => exact (formatSV_eq_ok_iff hn fun _ _ => rfl).mpr ⟨rfl, b, v, rfl⟩
  | rsRd b k => exact (formatSI_eq_ok_iff hn fun _ _ => rfl).mpr ⟨rfl, b, k, rfl⟩
  | encEof => exact (formatV_eq_ok_iff hn encode_encOrEof).mpr ⟨rfl, Config.eofMarker, rfl⟩
  | enc v =>
    have hv : v ≠ Config.eofMarker := by simpa [Instr.wf] using hwf
    exact (formatV_eq_ok_iff hn encode_encOrEof).mpr ⟨rfl, v, encOrEof_of_ne hv⟩
  | hdrWr k b => exact (formatIB_eq_ok_iff hn fun _ _ => rfl).mpr ⟨rfl, k, b, rfl⟩
  | hdrRd k => exact (formatI_eq_ok_iff hn fun _ => rfl).mpr ⟨rfl, k, rfl⟩
  | payWr k b => exact (formatIB_eq_ok_iff hn fun _ _ => rfl).mpr ⟨rfl, k, b, rfl⟩
  | payRd k => exact (formatI_eq_ok_iff hn fun _ => rfl).mpr ⟨rfl, k, rfl⟩
  | hdrPack => exact (formatZ_eq_ok_iff hn rfl).mpr ⟨rfl, rfl⟩
  | payPackA k v => exact (formatIV_eq_ok_iff hn fun _ _ => rfl).mpr ⟨rfl, k, v, rfl⟩
  | payPackB k v => exact (formatIV_eq_ok_iff hn fun _ _ => rfl).mpr ⟨rfl, k, v, rfl⟩
  | bufClr => exact (formatZ_eq_ok_iff hn rfl).mpr ⟨rfl, rfl⟩
  | frameEnc => exact (formatZ_eq_ok_iff hn rfl).mpr ⟨rfl, rfl⟩
  | wbRd k => exact (formatI_eq_ok_iff hn fun _ => rfl).mpr ⟨rfl, k, rfl⟩
  | symBuild => exact (formatZ_eq_ok_iff hn rfl).mpr ⟨rfl, rfl⟩
  | symRd k => exact (formatI_eq_ok_iff hn fun _ => rfl).mpr ⟨rfl, k, rfl⟩
  | modRun => exact (formatZ_eq_ok_iff hn rfl).mpr ⟨rfl, rfl⟩
  | smpRd k => exact (formatI_eq_ok_iff hn fun _ => rfl).mpr ⟨rfl, k, rfl⟩
  | smpRdb k => exact (formatI_eq_ok_iff hn fun _ => rfl).mpr ⟨rfl, k, rfl⟩

/-- No bit is dropped: each format reads only words that its row's commands encode to. -/
theorem encode_of_decode {c : Word} {i : Instr} (h : decode c = .ok i) : encode i = c := by
  unfold decode at h
  split at h
  · next hn => exact ((formatZ_eq_ok_iff hn rfl).mp h).1
  · next hn => exact ((formatR_eq_ok_iff hn fun _ => rfl).mp h).1
  · next hn => exact ((formatRV_eq_ok_iff hn fun _ _ => rfl).mp h).1
  · next hn => exact ((formatV_eq_ok_iff hn fun _ => rfl).mp h).1
  · next hn => exact ((formatV_eq_ok_iff hn fun _ => rfl).mp h).1
  · next hn => exact ((formatV_eq_ok_iff hn fun _ => rfl).mp h).1
  · next hn => exact ((formatS_eq_ok_iff hn fun _ => rfl).mp h).1
  · next hn => exact ((formatSV_eq_ok_iff hn fun _ _ => rfl).mp h).1
  · next hn => exact ((formatSI_eq_ok_iff hn fun _ _ => rfl).mp h).1
  · next hn => exact ((formatV_eq_ok_iff hn encode_encOrEof).mp h).1
  · next hn => exact ((formatIB_eq_ok_iff hn fun _ _ => rfl).mp h).1
  · next hn => exact ((formatI_eq_ok_iff hn fun _ => rfl).mp h).1
  · next hn => exact ((formatIB_eq_ok_iff hn fun _ _ => rfl).mp h).1
  · next hn => exact ((formatI_eq_ok_iff hn fun _ => rfl).mp h).1
  · next hn => exact ((formatZ_eq_ok_iff hn rfl).mp h).1
  · next hn => exact ((formatIV_eq_ok_iff hn fun _ _ => rfl).mp h).1
  · next hn => exact ((formatIV_eq_ok_iff hn fun _ _ => rfl).mp h).1
  · next hn => exact ((formatZ_eq_ok_iff hn rfl).mp h).1
  · next hn => exact ((formatZ_eq_ok_iff hn rfl).mp h).1
  · next hn => exact ((formatI_eq_ok_iff hn fun _ => rfl).mp h).1
  · next hn => exact ((formatZ_eq_ok_iff hn rfl).mp h).1
  · next hn => exact ((formatI_eq_ok_iff hn fun _ => rfl).mp h).1
  · next hn => exact ((formatZ_eq_ok_iff hn rfl).mp h).1
  · next hn => exact ((formatI_eq_ok_iff hn fun _ => rfl).mp h).1
  · next hn => exact ((formatI_eq_ok_iff hn fun _ => rfl).mp h).1
  · cases h

/-- The one term that is no reading of a word is ENC of the marker. -/
theorem Instr.wf_iff (i : Instr) : i.wf = true ↔ i ≠ .enc Config.eofMarker := by
  cases i <;> simp [Instr.wf]

/-- Settles O6. ENC of the marker encodes to the word of ENC.EOF, which decodes to ENC.EOF. -/
theorem encodeDecodeRoundTrip : Obligations.EncodeDecodeRoundTrip := by
  intro c i h
  have hc := encode_of_decode h
  refine ⟨hc, i.wf_iff.mpr ?_⟩
  rintro rfl
  have heof : decode c = .ok .encEof := hc ▸ decodeEncodeRoundTrip .encEof rfl
  rw [heof] at h
  cases h

end Sys2Proof
end

section
/-! SUPPORT. The opcode map (spec 30 R49). A row can match the words of its own opcode only, and a row of that opcode
matches exactly when the reserved fields of its format are zero; so the rows select what the decoder reads (O7). -/

namespace Sys2Proof

/-! ### The rows that can match a word -/

/-- C[23:0], the bits below the opcode byte. -/
def operandBits (c : Word) : BitVec 24 := c.extractLsb' 0 24

/-- The rows of the opcode map with a given opcode byte. -/
def rowsOf (op : Byte) : List OpcodeRow := opcodeMap.filter (fun r => opcodeOf r.pattern == op)

theorem opcodeOf_mask_of_row : ∀ r ∈ opcodeMap, opcodeOf r.mask = 0xFF := by decide

theorem opcodeOf_and (x y : Word) : opcodeOf (x &&& y) = opcodeOf x &&& opcodeOf y := BitVec.extractLsb'_and

/-- Every row's mask keeps the opcode byte, so that a row matches words of its own opcode only. -/
theorem opcodeOf_pattern_of_match {c : Word} {r : OpcodeRow} (hr : r ∈ opcodeMap) (h : c &&& r.mask = r.pattern) :
    opcodeOf r.pattern = opcodeOf c := by
  rw [← h, opcodeOf_and, opcodeOf_mask_of_row r hr]
  exact BitVec.and_allOnes

theorem firstRow_eq_find_rowsOf (c : Word) :
    firstRow c = ((rowsOf (opcodeOf c)).find? (fun r => c &&& r.mask == r.pattern)).map OpcodeRow.mnemonic := by
  unfold firstRow rowsOf
  rw [List.find?_filter]
  refine congrArg _ (List.find?_congr fun r hr => ?_)
  by_cases hmatch : c &&& r.mask = r.pattern
  · simp [hmatch, opcodeOf_pattern_of_match hr hmatch]
  · simp [hmatch]

/-! ### Masks -/

/-- A row that fixes no bit below the opcode byte to 1 matches a word of its opcode when the bits that the mask keeps
there are zero. -/
theorem row_match_iff {c : Word} {op : Byte} (hop : opcodeOf c = op) (reserved : BitVec 24) :
    c &&& (0xFF#8 ++ reserved) = op ++ 0#24 ↔ operandBits c &&& reserved = 0 := by
  have hc : op ++ operandBits c = c := (word_8_24_iff ..).mpr ⟨hop, rfl⟩
  have hff : op &&& 0xFF#8 = op := BitVec.and_allOnes
  calc c &&& (0xFF#8 ++ reserved) = op ++ 0#24
      ↔ (op ++ operandBits c) &&& (0xFF#8 ++ reserved) = op ++ 0#24 := by rw [hc]
    _ ↔ (op &&& 0xFF#8) ++ (operandBits c &&& reserved) = op ++ 0#24 := by rw [BitVec.and_append]
    _ ↔ operandBits c &&& reserved = 0 := by rw [hff]; exact BitVec.append_right_inj op

/-- The mask that keeps `len` bits from bit `lo` on. -/
def fieldMask (lo len : Nat) : BitVec 24 := (BitVec.allOnes len).setWidth 24 <<< lo

theorem getLsbD_fieldMask (lo len k : Nat) :
    (fieldMask lo len).getLsbD k = decide (k < 24 ∧ lo ≤ k ∧ k < lo + len) := by
  rw [fieldMask, BitVec.getLsbD_shiftLeft, BitVec.getLsbD_setWidth, BitVec.getLsbD_allOnes]
  grind

theorem and_fieldMask_eq_zero_iff (c : Word) (lo len : Nat) (h : lo + len ≤ 24) :
    operandBits c &&& fieldMask lo len = 0 ↔ c.extractLsb' lo len = 0 := by
  simp only [BitVec.eq_of_getLsbD_eq_iff, BitVec.getLsbD_and, getLsbD_fieldMask, operandBits,
    BitVec.getLsbD_extractLsb']
  constructor
  · intro hz k hk
    have hbit := hz (lo + k) (by omega)
    simpa [hk, show lo + k < 24 by omega] using hbit
  · intro hz k hk
    by_cases hfield : lo ≤ k ∧ k < lo + len
    · have hbit := hz (k - lo) (by omega)
      simpa [hk, hfield, show lo + (k - lo) = k by omega, show k - lo < len by omega] using hbit
    · simp [hfield]

/-- Testing a reserved field is testing the bits that its mask keeps. -/
theorem field_eq_zero (c : Word) (lo len : Nat) (h : lo + len ≤ 24) :
    (c.extractLsb' lo len == 0) = (operandBits c &&& fieldMask lo len == 0) := by
  rw [Bool.eq_iff_iff, beq_iff_eq, beq_iff_eq, and_fieldMask_eq_zero_iff c lo len h]

theorem masks_eq_zero (x a b : BitVec 24) : ((x &&& a == 0) && (x &&& b == 0)) = (x &&& (a ||| b) == 0) := by
  rw [Bool.eq_iff_iff]
  simp [BitVec.and_or_distrib_left]

/-! ### What each format tests, as a mask of the bits below the opcode byte -/

section Formats

variable (c : Word)

theorem formatZ_eq_whenZero (i : Instr) : formatZ c i = whenZero c (operandBits c &&& 0xFFFFFF == 0) i :=
  congrArg (whenZero c · i) (field_eq_zero c 0 24 (by decide))

theorem formatR_eq_whenZero (f : BitVec 8 → Instr) :
    formatR c f = whenZero c (operandBits c &&& 0x00FFFF == 0) (f (c.extractLsb' 16 8)) :=
  congrArg (whenZero c · _) (field_eq_zero c 0 16 (by decide))

theorem formatRV_eq_whenZero (f : BitVec 8 → BitVec 16 → Instr) :
    formatRV c f = whenZero c (operandBits c &&& 0 == 0) (f (c.extractLsb' 16 8) (c.extractLsb' 0 16)) := by
  simp [formatRV, whenZero]

theorem formatV_eq_whenZero (f : BitVec 16 → Instr) :
    formatV c f = whenZero c (operandBits c &&& 0xFF0000 == 0) (f (c.extractLsb' 0 16)) :=
  congrArg (whenZero c · _) (field_eq_zero c 16 8 (by decide))

theorem formatS_eq_whenZero (f : BitVec 3 → Instr) :
    formatS c f = whenZero c (operandBits c &&& 0xF8FFFF == 0) (f (c.extractLsb' 16 3)) := by
  rw [formatS, field_eq_zero c 19 5 (by decide), field_eq_zero c 0 16 (by decide), masks_eq_zero]
  rfl

theorem formatSV_eq_whenZero (f : BitVec 3 → BitVec 16 → Instr) :
    formatSV c f = whenZero c (operandBits c &&& 0xF80000 == 0) (f (c.extractLsb' 16 3) (c.extractLsb' 0 16)) :=
  congrArg (whenZero c · _) (field_eq_zero c 19 5 (by decide))

theorem formatSI_eq_whenZero (f : BitVec 3 → BitVec 5 → Instr) :
    formatSI c f = whenZero c (operandBits c &&& 0xF8FFE0 == 0) (f (c.extractLsb' 16 3) (c.extractLsb' 0 5)) := by
  rw [formatSI, field_eq_zero c 19 5 (by decide), field_eq_zero c 5 11 (by decide), masks_eq_zero]
  rfl

theorem formatIB_eq_whenZero (f : BitVec 12 → BitVec 8 → Instr) :
    formatIB c f = whenZero c (operandBits c &&& 0xF00000 == 0) (f (c.extractLsb' 8 12) (c.extractLsb' 0 8)) :=
  congrArg (whenZero c · _) (field_eq_zero c 20 4 (by decide))

theorem formatIV_eq_whenZero (f : BitVec 12 → BitVec 12 → Instr) :
    formatIV c f = whenZero c (operandBits c &&& 0 == 0) (f (c.extractLsb' 12 12) (c.extractLsb' 0 12)) := by
  simp [formatIV, whenZero]

theorem formatI_eq_whenZero (f : BitVec 24 → Instr) :
    formatI c f = whenZero c (operandBits c &&& 0 == 0) (f (c.extractLsb' 0 24)) := by
  simp [formatI, whenZero]

end Formats

/-! ### The row that a word selects -/

/-- The mnemonic of what the decoder answers, none for an illegal word. -/
def readMnemonic (d : Except IllegalWord Instr) : Option String := d.toOption.map Instr.mnemonic

theorem readMnemonic_whenZero (c : Word) (z : Bool) (i : Instr) :
    readMnemonic (whenZero c z i) = if z then some i.mnemonic else none := by
  cases z <;> rfl

/-- A row as in `row_match_iff`, alone and on a word of its opcode, selects what a format reads that tests the same bits. -/
theorem find?_row {c : Word} {op : Byte} (hop : opcodeOf c = op) {m : String} {reserved : BitVec 24} {i : Instr}
    (hi : operandBits c &&& reserved = 0 → m = i.mnemonic) :
    (([⟨m, op ++ 0#24, 0xFF#8 ++ reserved⟩] : List OpcodeRow).find? (fun r => c &&& r.mask == r.pattern)).map
        OpcodeRow.mnemonic = readMnemonic (whenZero c (operandBits c &&& reserved == 0) i) := by
  have hmatch := row_match_iff hop reserved
  rw [readMnemonic_whenZero]
  by_cases hz : operandBits c &&& reserved = 0
  · rw [List.find?_cons_of_pos (by simpa using hmatch.mpr hz), if_pos (by simpa using hz), ← hi hz]
    rfl
  · rw [List.find?_cons_of_neg (by simpa using mt hmatch.mp hz), if_neg (by simpa using hz)]
    rfl

/-- The opcodes with one row. -/
theorem firstRow_eq_of_row {c : Word} {n : Nat} (hn : (opcodeOf c).toNat = n) {reserved : BitVec 24} {i : Instr}
    {d : Except IllegalWord Instr}
    (hrow : rowsOf (BitVec.ofNat 8 n) = [⟨i.mnemonic, BitVec.ofNat 8 n ++ 0#24, 0xFF#8 ++ reserved⟩])
    (hd : d = whenZero c (operandBits c &&& reserved == 0) i) : firstRow c = readMnemonic d := by
  have hop := opcodeOf_of_toNat hn
  rw [firstRow_eq_find_rowsOf, hop, hrow, hd]
  exact find?_row hop fun _ => rfl

theorem rowsOf_enc : rowsOf 0x30#8 =
    [⟨"ENC.EOF", encode .encEof, 0xFFFFFFFF⟩, ⟨"ENC", 0x30#8 ++ 0#24, 0xFF#8 ++ 0xFF0000#24⟩] := rfl

/-- Opcode 0x30 has two rows: ENC.EOF, which matches the marker's word alone, and ENC. -/
theorem firstRow_enc {c : Word} (hn : (opcodeOf c).toNat = 0x30) : firstRow c = readMnemonic (formatV c encOrEof) := by
  by_cases heof : encode .encEof = c
  · subst heof
    rfl
  · have hop : opcodeOf c = 0x30#8 := opcodeOf_of_toNat hn
    have hall : c &&& 0xFFFFFFFF#32 = c := BitVec.and_allOnes
    rw [firstRow_eq_find_rowsOf, hop, rowsOf_enc, formatV_eq_whenZero,
      List.find?_cons_of_neg (by simpa [hall] using Ne.symm heof)]
    refine find?_row hop fun hz => ?_
    have hzero := (and_fieldMask_eq_zero_iff c 16 8 (by decide)).mp hz
    have hv : c.extractLsb' 0 16 ≠ Config.eofMarker :=
      fun hv => heof ((word_8_8_16_iff ..).mpr ⟨hop, hzero, hv⟩)
    rw [encOrEof_of_ne hv]
    rfl

theorem opcode_assigned_of_row : ∀ r ∈ opcodeMap, (opcodeOf r.pattern).toNat ∈
    [0x00, 0x01, 0x02, 0x10, 0x11, 0x12, 0x20, 0x21, 0x22, 0x30, 0x40, 0x41, 0x42, 0x43, 0x44, 0x45, 0x46, 0x47, 0x48,
      0x49, 0x50, 0x51, 0x60, 0x61, 0x62] := by decide

theorem firstRow_eq_none_iff (c : Word) : firstRow c = none ↔ ∀ r ∈ opcodeMap, c &&& r.mask ≠ r.pattern := by
  simp [firstRow]

/-- The map and the decoder agree, opcode by opcode: the row's mask tests what the opcode's format tests. -/
theorem firstRow_eq_readMnemonic (c : Word) : firstRow c = readMnemonic (decode c) := by
  unfold decode
  split
  · next hn => exact firstRow_eq_of_row hn rfl (formatZ_eq_whenZero c _)
  · next hn => exact firstRow_eq_of_row hn rfl (formatR_eq_whenZero c _)
  · next hn => exact firstRow_eq_of_row hn rfl (formatRV_eq_whenZero c _)
  · next hn => exact firstRow_eq_of_row hn rfl (formatV_eq_whenZero c _)
  · next hn => exact firstRow_eq_of_row hn rfl (formatV_eq_whenZero c _)
  · next hn => exact firstRow_eq_of_row hn rfl (formatV_eq_whenZero c _)
  · next hn => exact firstRow_eq_of_row hn rfl (formatS_eq_whenZero c _)
  · next hn => exact firstRow_eq_of_row hn rfl (formatSV_eq_whenZero c _)
  · next hn => exact firstRow_eq_of_row hn rfl (formatSI_eq_whenZero c _)
  · next hn => exact firstRow_enc hn
  · next hn => exact firstRow_eq_of_row hn rfl (formatIB_eq_whenZero c _)
  · next hn => exact firstRow_eq_of_row hn rfl (formatI_eq_whenZero c _)
  · next hn => exact firstRow_eq_of_row hn rfl (formatIB_eq_whenZero c _)
  · next hn => exact firstRow_eq_of_row hn rfl (formatI_eq_whenZero c _)
  · next hn => exact firstRow_eq_of_row hn rfl (formatZ_eq_whenZero c _)
  · next hn => exact firstRow_eq_of_row hn rfl (formatIV_eq_whenZero c _)
  · next hn => exact firstRow_eq_of_row hn rfl (formatIV_eq_whenZero c _)
  · next hn => exact firstRow_eq_of_row hn rfl (formatZ_eq_whenZero c _)
  · next hn => exact firstRow_eq_of_row hn rfl (formatZ_eq_whenZero c _)
  · next hn => exact firstRow_eq_of_row hn rfl (formatI_eq_whenZero c _)
  · next hn => exact firstRow_eq_of_row hn rfl (formatZ_eq_whenZero c _)
  · next hn => exact firstRow_eq_of_row hn rfl (formatI_eq_whenZero c _)
  · next hn => exact firstRow_eq_of_row hn rfl (formatZ_eq_whenZero c _)
  · next hn => exact firstRow_eq_of_row hn rfl (formatI_eq_whenZero c _)
  · next hn => exact firstRow_eq_of_row hn rfl (formatI_eq_whenZero c _)
  · refine (firstRow_eq_none_iff c).mpr fun r hr hmatch => ?_
    have hassigned := opcode_assigned_of_row r hr
    rw [opcodeOf_pattern_of_match hr hmatch] at hassigned
    simp_all

/-- Settles O7: on every word the map selects the mnemonic of what the decoder reads. -/
theorem decodeFollowsTheOpcodeMap : Obligations.DecodeFollowsTheOpcodeMap := by
  refine ⟨rfl, fun c => (firstRow_eq_readMnemonic c).trans ?_⟩
  cases decode c <;> rfl

end Sys2Proof
end

section
/-! SUPPORT. One presented word and its answer: the step takes the word off the port and runs the command it decodes to
(O1) or answers an illegal word (O2), and every command answers one response word (O51). -/

namespace Sys2Proof.Machine

/-! ### One presented word (spec 00 R5, 30 R50, R51) -/

/-- Settles O1: the port gives the decoded command and the state without the word. -/
theorem stepRunsTheDecodedCommand : Obligations.StepRunsTheDecodedCommand := by
  intro s c rest i hin hd
  rw [step, fetch_command s c i rest hin hd]
  rfl

/-- Settles O2: the illegal word is raised on the state with the word taken off the port. -/
theorem stepAnswersIllegalWords : Obligations.StepAnswersIllegalWords := by
  intro s c rest e hin hd
  rw [step, fetch_illegal s c e rest hin hd]
  cases hf : s.fault with
  | true => simp [execIllegal, hf, State.raise_of_fault, State.withResponse, State.withInbox, ErrKind.code]
  | false =>
    simp [execIllegal, hf, State.raise_of_no_fault, State.withResponse, State.withRecord, State.withInbox,
      ErrKind.code, opcodeOf]

/-! ### Response words (30 R48, 60 R111) -/

theorem responseWord_zero_field (st : Byte) (v : Half) : (responseWord st v).extractLsb' 16 8 = 0 := by
  obtain ⟨-, hzero, -⟩ := (word_8_8_16_iff st 0 v (responseWord st v)).mp rfl
  exact hzero

theorem ErrKind.code_le (e : ErrKind) : e.code.toNat ≤ 5 := by
  cases e <;> decide

/-- No command stops the machine: each is served. -/
theorem exec_next (i : Instr) (s : State) : ∃ t, exec i s = .next t := by
  cases i with
  | nop => exact serveAlways_next .nop nopRule s
  | cfgRd n => exact serveAlways_next ..
  | _ => exact serve_next ..

/-- A command that ends answers with a result, or with the code of an error. -/
theorem exec_response {i : Instr} {s t : State} (h : exec i s = .next t) :
    (∃ v, t.response = some (responseWord 0 v)) ∨ ∃ e : ErrKind, t.response = some (responseWord e.code 0) := by
  rcases exec_ends i s t h with ⟨e, -, rfl⟩ | ⟨u, v, -, -, rfl⟩
  · exact .inr ⟨e, s.raise_response e _⟩
  · exact .inl ⟨v, rfl⟩

/-- Settles O51: a result is answered with status 0, an error with its code and the result 0. -/
theorem everyCommandAnswersOneResponseWord : Obligations.EveryCommandAnswersOneResponseWord := by
  intro i s
  obtain ⟨t, ht⟩ := exec_next i s
  rcases exec_response ht with ⟨v, hw⟩ | ⟨e, hw⟩
  · refine ⟨t, _, ht, hw, responseWord_zero_field 0 v, ?_, ?_⟩ <;> simp [responseWord_status]
  · refine ⟨t, _, ht, hw, responseWord_zero_field _ 0, ?_, fun _ => responseWord_result _ 0⟩
    rw [responseWord_status]
    exact e.code_le

end Sys2Proof.Machine

namespace Sys2Proof

/-- Settles O8, by evaluating the decoder on each word, component by component. -/
theorem wordsOfTheSpecDecode : Obligations.WordsOfTheSpecDecode := by
  refine ⟨?system, ?gf, ?rs, ?line, ?frame, ?serializer, ?modulator, ?illegal⟩ <;> decide

end Sys2Proof
end

section
/-! SUPPORT. The field GF(256) (spec 40 R54, R55, R57). Multiplication by x generates ALOG from 1 and commutes with
polynomial multiplication in its first factor; both are linear over XOR. So a nonzero factor is a number of
multiplications by x, that number is its logarithm, and the laws of the product follow without a table (O18). -/

namespace Sys2Proof.Machine

/-! ### Polynomials over GF(2) modulo 0x187 -/

@[simp] theorem timesX_zero : timesX 0#8 = 0#8 := rfl

/-- A byte taken or not by the XOR of two bits is the XOR of what each bit takes. -/
theorem ite_bne_eq_xor (p q : Bool) (a : Byte) :
    (if p ^^ q then a else 0) = (if p then a else 0) ^^^ (if q then a else 0) := by
  cases p <;> cases q <;> simp

theorem timesX_eq_xor (a : Byte) : timesX a = (a <<< 1) ^^^ (if a.msb then 0x87 else 0) := by
  unfold timesX
  split
  · rfl
  · exact BitVec.xor_zero.symm

theorem timesX_xor (a b : Byte) : timesX (a ^^^ b) = timesX a ^^^ timesX b := by
  rw [timesX_eq_xor, timesX_eq_xor, timesX_eq_xor, BitVec.shiftLeft_xor_distrib, BitVec.msb_xor, ite_bne_eq_xor]
  ac_rfl

@[simp] theorem polyMul_zero_left (b : Byte) (n : Nat) : polyMul 0#8 b n = 0#8 := by
  induction n generalizing b with
  | zero => rfl
  | succ n ih => simp [polyMul, ih]

@[simp] theorem polyMul_zero_right (a : Byte) (n : Nat) : polyMul a 0#8 n = 0#8 := by
  induction n generalizing a with
  | zero => rfl
  | succ n ih => simp [polyMul, ih]

theorem polyMul_one_left : ∀ b, polyMul 1 b 8 = b := by decide

theorem polyMul_xor_right (a b c : Byte) (n : Nat) :
    polyMul a (b ^^^ c) n = polyMul a b n ^^^ polyMul a c n := by
  induction n generalizing a b c with
  | zero => exact BitVec.xor_self.symm
  | succ n ih =>
    rw [polyMul, polyMul, polyMul, BitVec.getLsbD_xor, ite_bne_eq_xor, BitVec.ushiftRight_xor_distrib, ih]
    ac_rfl

theorem polyMul_timesX (a b : Byte) (n : Nat) : polyMul (timesX a) b n = timesX (polyMul a b n) := by
  induction n generalizing a b with
  | zero => exact timesX_zero.symm
  | succ n ih =>
    rw [polyMul, polyMul, timesX_xor, ih, apply_ite timesX]
    rfl

theorem polyMul_iterate_timesX (k : Nat) (a b : Byte) (n : Nat) :
    polyMul (timesX^[k] a) b n = timesX^[k] (polyMul a b n) := by
  have h : Function.Semiconj (polyMul · b n) timesX timesX := fun a => polyMul_timesX a b n
  exact (h.iterate_right k).eq a

/-! ### The powers of x -/

theorem ne_sentinel_iff (e : Byte) : e ≠ Config.sentinel ↔ e.toNat < 255 := by
  have hvalue : Config.sentinel.toNat = 255 := rfl
  rw [ne_eq, ← BitVec.toNat_inj]
  omega

theorem toNat_ofNat_modexp (n : Nat) : (BitVec.ofNat 8 (modexp n)).toNat = modexp n := by
  have := modexp_lt n
  rw [BitVec.toNat_ofNat, Nat.mod_eq_of_lt (by omega)]

/-- The rule that generates ALOG (40 R55), with the order 255 of x. -/
theorem defaultAlog_succ : ∀ e : Byte, e ≠ Config.sentinel →
    defaultAlog (BitVec.ofNat 8 (modexp (e.toNat + 1))) = timesX (defaultAlog e) := by decide

theorem defaultAlog_modexp (n : Nat) : defaultAlog (BitVec.ofNat 8 (modexp n)) = timesX^[n] 1 := by
  induction n with
  | zero => exact defaultAlog_zero
  | succ n ih =>
    have hmod : modexp (n + 1) = modexp (modexp n + 1) := (Nat.mod_add_mod n _ 1).symm
    have hexponent : BitVec.ofNat 8 (modexp n) ≠ Config.sentinel := by
      rw [ne_sentinel_iff, toNat_ofNat_modexp]
      exact modexp_lt n
    have hsucc := defaultAlog_succ _ hexponent
    rw [toNat_ofNat_modexp] at hsucc
    rw [hmod, hsucc, ih, Function.iterate_succ_apply']

/-- A nonzero element is the power of x whose exponent is its logarithm (40 R54). -/
theorem iterate_timesX_defaultLog {a : Byte} (ha : a ≠ 0) : timesX^[(defaultLog a).toNat] 1 = a := by
  have hlt : (defaultLog a).toNat < 255 := (ne_sentinel_iff _).mp (mt (defaultLog_eq_sentinel_iff a).mp ha)
  rw [← defaultAlog_modexp, modexp_of_lt _ hlt, BitVec.ofNat_toNat, BitVec.setWidth_eq, defaultAlog_defaultLog]

/-- Multiplying by a nonzero element is multiplying by x as often as its logarithm says. -/
theorem polyMul_eq_iterate_timesX {a : Byte} (ha : a ≠ 0) (b : Byte) :
    polyMul a b 8 = timesX^[(defaultLog a).toNat] b := by
  conv_lhs => rw [← iterate_timesX_defaultLog ha, polyMul_iterate_timesX, polyMul_one_left]

/-! ### Multiplication through the logarithms (40 R57) -/

theorem fieldMul_of_ne_zero {a b : Byte} (ha : a ≠ 0) (hb : b ≠ 0) :
    fieldMul machineParams a b = timesX^[(defaultLog a).toNat + (defaultLog b).toNat] 1 := by
  rw [fieldMul, if_neg (not_or.mpr ⟨ha, hb⟩)]
  exact defaultAlog_modexp _

theorem fieldMul_eq_polyMul (a b : Byte) : fieldMul machineParams a b = polyMul a b 8 := by
  rcases eq_or_ne a 0 with rfl | ha
  · simp [fieldMul]
  rcases eq_or_ne b 0 with rfl | hb
  · simp [fieldMul]
  calc fieldMul machineParams a b
      = timesX^[(defaultLog a).toNat] (timesX^[(defaultLog b).toNat] 1) := by
        rw [fieldMul_of_ne_zero ha hb, Function.iterate_add_apply]
    _ = timesX^[(defaultLog a).toNat] b := by rw [iterate_timesX_defaultLog hb]
    _ = polyMul a b 8 := (polyMul_eq_iterate_timesX ha b).symm

theorem antilogSum_comm (P : Params) (a b : Byte) : antilogSum P a b = antilogSum P b a := by
  rw [antilogSum, antilogSum, Nat.add_comm]

theorem fieldMul_comm (P : Params) (a b : Byte) : fieldMul P a b = fieldMul P b a := by
  simp only [fieldMul, or_comm, antilogSum_comm P (P.log a)]

theorem fieldMul_xor_right (a b c : Byte) :
    fieldMul machineParams a (b ^^^ c) = fieldMul machineParams a b ^^^ fieldMul machineParams a c := by
  simp only [fieldMul_eq_polyMul, polyMul_xor_right]

/-- Both sides multiply `b` by `c` and by x as often as the logarithm of `a` says. -/
theorem fieldMul_assoc (a b c : Byte) :
    fieldMul machineParams a (fieldMul machineParams b c) = fieldMul machineParams (fieldMul machineParams a b) c := by
  simp only [fieldMul_eq_polyMul]
  rcases eq_or_ne a 0 with rfl | ha
  · simp
  · rw [polyMul_eq_iterate_timesX ha, polyMul_eq_iterate_timesX ha, polyMul_iterate_timesX]

/-- Settles O18: the product through the logarithms is the polynomial product, and the laws are those of powers of x. -/
theorem fieldMultiplicationIsGf256 : Obligations.FieldMultiplicationIsGf256 := fun a b c =>
  ⟨fieldMul_eq_polyMul a b, fieldMul_comm machineParams a b, fieldMul_assoc a b c, fieldMul_xor_right a b c⟩

end Sys2Proof.Machine
end

section
/-! SUPPORT. The commands of the GF engine (spec 40 R58 to R60): GF_LOG and GF_ALOG look a byte up in a table and refuse
any other operand, GF_MODEXP serves every operand (O14 to O16). -/

namespace Sys2Proof.Machine

/-! ### Operands and errors of format V -/

theorem lowByte_eq_ofNat (v : Half) : lowByte v = BitVec.ofNat 8 v.toNat := by
  simp [lowByte, BitVec.extractLsb', Nat.shiftRight_zero]

theorem notAByte_iff (v : Half) : notAByte v = true ↔ 255 < v.toNat := decide_eq_true_iff

/-- The record of an error on a word of format V holds the opcode and the operand (30 R46, 60 R116). -/
theorem State.raise_formatV (s : State) (e : ErrKind) (op : Byte) (v : Half) :
    s.raise e (op ++ 0#8 ++ v) = s.afterError e.code op v := by
  obtain ⟨hop, -, hv⟩ := (word_8_8_16_iff op 0#8 v _).mp rfl
  rw [State.raise_eq_afterError, hop, hv]

/-! ### Looking a byte up -/

/-- The rule of GF_LOG and of GF_ALOG, for the table `f`. -/
def lookupRule (f : Byte → Byte) (v : Half) (s : State) : Reply :=
  if notAByte v then .error .invalidArg else .ok (s, zextByte (f (lowByte v)))

theorem gfLogRule_eq_lookupRule (P : Params) : gfLogRule P = lookupRule P.log := rfl

theorem gfAlogRule_eq_lookupRule (P : Params) : gfAlogRule P = lookupRule P.alog := rfl

theorem lookupRule_of_byte (f : Byte → Byte) {v : Half} (s : State) (hv : v.toNat ≤ 255) :
    lookupRule f v s = .ok (s, (f (BitVec.ofNat 8 v.toNat)).setWidth 16) := by
  rw [lookupRule, if_neg (mt (notAByte_iff v).mp (by omega)), lowByte_eq_ofNat, zextByte]

theorem lookupRule_of_not_byte (f : Byte → Byte) {v : Half} (s : State) (hv : 255 < v.toNat) :
    lookupRule f v s = .error .invalidArg :=
  if_pos ((notAByte_iff v).mpr hv)

/-- A served lookup answers the entry of a byte, and any other operand with E_INVALID_ARG (40 R58, R59). -/
theorem serve_lookupRule (f : Byte → Byte) {i : Instr} {op : Byte} {v : Half} (hi : encode i = op ++ 0#8 ++ v)
    (s : State) (hf : s.fault = false) :
    (v.toNat ≤ 255 →
      serve i (lookupRule f v) s = .next (s.completed ((f (BitVec.ofNat 8 v.toNat)).setWidth 16))) ∧
    (255 < v.toNat → serve i (lookupRule f v) s = .next (s.afterError 2 op v)) := by
  constructor
  · intro hv
    exact serve_of_ok i _ s s _ hf (lookupRule_of_byte f s hv)
  · intro hv
    rw [serve_of_error i _ s _ hf (lookupRule_of_not_byte f s hv), hi, State.raise_formatV]
    rfl

theorem exec_gfLog (v : Half) (s : State) :
    exec (.gfLog v) s = serve (.gfLog v) (lookupRule defaultLog v) s := rfl

theorem exec_gfAlog (v : Half) (s : State) :
    exec (.gfAlog v) s = serve (.gfAlog v) (lookupRule defaultAlog v) s := rfl

theorem exec_gfModexp (v : Half) (s : State) : exec (.gfModexp v) s = serve (.gfModexp v) (gfModexpRule v) s := rfl

/-- No operand of GF_ALOG but the sentinel returns 0 (40 R55, R59). -/
theorem defaultAlog_eq_zero_iff (e : Byte) : defaultAlog e = 0 ↔ e = Config.sentinel := by
  rw [← defaultAlog_defaultLog 0, defaultLog_defaultAlog.injective.eq_iff, defaultLog_zero]

/-- Settles O14: GF_LOG serves a lookup in LOG. -/
theorem gfLogReturnsTheExponent : Obligations.GfLogReturnsTheExponent := by
  refine ⟨fun _ => rfl, fun s v hf => ?_, by decide⟩
  rw [exec_gfLog]
  exact serve_lookupRule defaultLog rfl s hf

/-- Settles O15: GF_ALOG serves a lookup in ALOG. -/
theorem gfAlogReturnsTheElement : Obligations.GfAlogReturnsTheElement := by
  refine ⟨fun _ => rfl, fun s v hf => ?_, defaultAlog_zero, by decide, by decide, defaultAlog_eq_zero_iff⟩
  rw [exec_gfAlog]
  exact serve_lookupRule defaultAlog rfl s hf

/-- Settles O16: GF_MODEXP has no error to raise. -/
theorem gfModexpReturnsTheRemainder : Obligations.GfModexpReturnsTheRemainder := by
  refine ⟨fun _ => rfl, fun s v hf => ?_⟩
  rw [exec_gfModexp]
  exact serve_of_ok _ _ s s _ hf rfl

end Sys2Proof.Machine
end

section
/-! SUPPORT. The printed loops of `rs_update` (spec 41 R64), each loop said byte by byte, and their agreement with the
direct form `rsFold`, for any tables (O23). -/

namespace Sys2Proof.Machine

/-! ### The accumulate loop -/

/-- One pass of the loop over the mirrored bytes: GEN[m + 1] reaches bytes m + 1 and 31 - m. -/
def mirrorStep (P : Params) (fb : Byte) (par : Vector Byte 32) (m : Nat) : Vector Byte 32 :=
  xorAt (xorAt par (m + 1) (antilogSum P fb (P.gen (m + 1)))) (32 - (m + 1)) (antilogSum P fb (P.gen (m + 1)))

theorem antilogSum_gen_of_le_center (P : Params) (fb : Byte) {k : Nat} (hk : k ≤ 16) :
    antilogSum P fb (P.gen k) = tap P fb k := by
  rw [tap, tapIndex, if_pos hk]

/-- The accumulate step is palindromic in the bank: mirrored bytes take the same byte (41 R64). -/
theorem tap_mirror (P : Params) (fb : Byte) {k : Nat} (hk : k ≤ 32) : tap P fb (32 - k) = tap P fb k := by
  have hindex : tapIndex (32 - k) = tapIndex k := by
    unfold tapIndex
    split <;> split <;> omega
  rw [tap, tap, hindex]

theorem xorAt_getElem (par : Vector Byte 32) (j : Nat) (t : Byte) (k : Nat) (hk : k < 32) :
    (xorAt par j t)[k] = if j = k then par[k] ^^^ t else par[k] := by
  rw [xorAt, Vector.getElem_setIfInBounds]
  split
  · next hjk => simp [hjk, hk]
  · rfl

/-- After `n` passes the first `n` bytes above byte 0 and the last `n` bytes of the bank have taken theirs. -/
theorem foldl_mirrorStep_getElem (P : Params) (fb : Byte) (par : Vector Byte 32) (n : Nat) (hn : n ≤ 15) (k : Nat)
    (hk : k < 32) :
    ((List.range n).foldl (mirrorStep P fb) par)[k] =
      if (1 ≤ k ∧ k ≤ n) ∨ 32 - n ≤ k then par[k] ^^^ tap P fb k else par[k] := by
  induction n with
  | zero => rw [if_neg (by omega)]; rfl
  | succ n ih =>
    rw [List.range_succ, List.foldl_concat, mirrorStep,
      antilogSum_gen_of_le_center P fb (by omega), xorAt_getElem, xorAt_getElem, ih (by omega)]
    by_cases hlow : n + 1 = k
    · rw [if_neg (by omega), if_pos hlow, if_neg (by omega), if_pos (by omega), hlow]
    by_cases hhigh : 32 - (n + 1) = k
    · rw [if_pos hhigh, if_neg hlow, if_neg (by omega), if_pos (by omega),
        ← tap_mirror P fb (show n + 1 ≤ 32 by omega), hhigh]
    · rw [if_neg hhigh, if_neg hlow]
      congr 1
      apply propext
      omega

/-- The bank after the accumulate step, which the sentinel skips. -/
def accumulated (P : Params) (fb : Byte) (par : Vector Byte 32) : Vector Byte 32 :=
  if fb = Config.sentinel then par
  else xorAt ((List.range 15).foldl (mirrorStep P fb) par) 16 (antilogSum P fb (P.gen 16))

/-- The accumulate step gives every byte but byte 0 its own. -/
theorem accumulated_getElem (P : Params) (fb : Byte) (par : Vector Byte 32) (k : Nat) (hk : k + 1 < 32) :
    (accumulated P fb par)[k + 1] =
      if fb = Config.sentinel then par[k + 1] else par[k + 1] ^^^ tap P fb (k + 1) := by
  unfold accumulated
  split
  · rfl
  · rw [antilogSum_gen_of_le_center P fb le_rfl, xorAt_getElem, foldl_mirrorStep_getElem P fb par 15 le_rfl]
    by_cases hcenter : 16 = k + 1
    · rw [if_pos hcenter, if_neg (by omega), hcenter]
    · rw [if_neg hcenter, if_pos (by omega)]

/-! ### The shift loop -/

/-- One pass of the loop that shifts the bank. -/
def shiftStep (par : Vector Byte 32) (k : Nat) : Vector Byte 32 := par.setIfInBounds k ((par[k + 1]?).getD 0)

/-- After `n` passes the first `n` bytes are the next ones: by ascending k each source is read before it is
overwritten. -/
theorem foldl_shiftStep_getElem (par : Vector Byte 32) (n : Nat) (hn : n ≤ 31) (k : Nat) (hk : k < 32) :
    ((List.range n).foldl shiftStep par)[k] = if h : k < n then par[k + 1] else par[k] := by
  induction n generalizing k with
  | zero => rfl
  | succ n ih =>
    rw [List.range_succ, List.foldl_concat, shiftStep, Vector.getElem_setIfInBounds]
    rcases Nat.lt_trichotomy k n with hlt | rfl | hgt
    · rw [if_neg hlt.ne', ih (by omega), dif_pos hlt, dif_pos (by omega)]
    · rw [if_pos rfl, dif_pos (by omega), Vector.getElem?_eq_getElem (by omega), Option.getD_some, ih (by omega),
        dif_neg (by omega)]
    · rw [if_neg hgt.ne, ih (by omega), dif_neg (by omega), dif_neg (by omega)]

/-! ### The update -/

theorem rsUpdateLoops_eq (P : Params) (par : Vector Byte 32) (b : Byte) :
    rsUpdateLoops P par b =
      ((List.range 31).foldl shiftStep (accumulated P (P.log (b ^^^ par[0])) par)).setIfInBounds 31
        (P.alog (P.log (b ^^^ par[0]))) :=
  rfl

/-- Settles O23, byte by byte: the bytes below the last are shifted ones, the last is the antilog of the feedback. -/
theorem rsFoldIsThePrintedLoops : Obligations.RsFoldIsThePrintedLoops := by
  intro P par b
  ext k hk
  rw [rsUpdateLoops_eq, Vector.getElem_setIfInBounds]
  rcases eq_or_ne 31 k with rfl | hne
  · rw [if_pos rfl, rsFold_last]
  · rw [if_neg hne, foldl_shiftStep_getElem _ 31 le_rfl, dif_pos (by omega), accumulated_getElem,
      rsFold_getElem _ _ _ _ (by omega)]

end Sys2Proof.Machine
end

section
/-! SUPPORT. The parity of a byte sequence (spec 41 R68 to R70). Zeros fold to zeros for any valid tables (O24). With the
default tables one fold is linear over GF(256): the bank shifts and takes the feedback times the generator. So parity is
additive (O25), and the Horner scheme at a root of the generator stays 0 across a fold (O26). -/

namespace Sys2Proof.Machine

/-! ### Zero bytes (41 R70 (a)) -/

theorem alog_sentinel {P : Params} (hP : P.Valid) : P.alog Config.sentinel = 0 := by
  rw [← hP.log_zero, hP.alog_log]

/-- A zero byte leaves a bank of zeros: the feedback is the sentinel. -/
theorem rsFold_zero {P : Params} (hP : P.Valid) :
    rsFold P (Vector.replicate 32 0) 0 = Vector.replicate 32 0 := by
  have hfb : P.log ((0 : Byte) ^^^ (Vector.replicate 32 (0 : Byte))[0]) = Config.sentinel := by
    rw [Vector.getElem_replicate, BitVec.xor_self]
    exact hP.log_zero
  ext1 k hk
  rcases eq_or_ne k 31 with rfl | hne
  · rw [rsFold_last, hfb, alog_sentinel hP, Vector.getElem_replicate]
  · rw [rsFold_getElem _ _ _ _ (by omega), if_pos hfb, Vector.getElem_replicate, Vector.getElem_replicate]

/-- Settles O24, by induction on the number of bytes. -/
theorem zeroBytesGiveZeroParity : Obligations.ZeroBytesGiveZeroParity := by
  intro P n hP
  unfold parityOf
  induction n with
  | zero => rfl
  | succ n ih => rw [List.replicate_succ, List.foldl_cons, rsFold_zero hP, ih]

/-! ### One fold over the field (41 R64, R69) -/

/-- The coefficient of the generator at position `k`, as a field element (41 R62). -/
def genCoeff (k : Nat) : Byte := defaultAlog (defaultGen k)

theorem genCoeff_ne_zero {k : Nat} (hk : k ≤ 32) : genCoeff k ≠ 0 :=
  mt (defaultAlog_eq_zero_iff _).mp (defaultGen_ne_sentinel k hk)

theorem defaultLog_genCoeff (k : Nat) : defaultLog (genCoeff k) = defaultGen k := defaultLog_defaultAlog _

theorem genCoeff_last : genCoeff 32 = 1 := by decide

theorem tap_machineParams (fb : Byte) {k : Nat} (hk : k ≤ 32) :
    tap machineParams fb k = antilogSum machineParams fb (defaultGen k) := by
  have hgen : machineParams.gen (tapIndex k) = defaultGen k := by
    unfold tapIndex
    split
    · rfl
    · exact (defaultGen_palindrome k hk).symm
  rw [tap, hgen]

/-- The byte a tap takes is the product of the fed-back element and the coefficient. -/
theorem tap_eq_fieldMul {f : Byte} (hf : f ≠ 0) {k : Nat} (hk : k ≤ 32) :
    tap machineParams (defaultLog f) k = fieldMul machineParams f (genCoeff k) := by
  rw [tap_machineParams _ hk, fieldMul, if_neg (not_or.mpr ⟨hf, genCoeff_ne_zero hk⟩)]
  show _ = antilogSum machineParams (defaultLog f) (defaultLog (genCoeff k))
  rw [defaultLog_genCoeff]

theorem fieldMul_zero_left (P : Params) (a : Byte) : fieldMul P 0 a = 0 := if_pos (.inl rfl)

theorem fieldMul_xor_left (a b c : Byte) :
    fieldMul machineParams (a ^^^ b) c = fieldMul machineParams a c ^^^ fieldMul machineParams b c := by
  simp only [fieldMul_comm machineParams _ c, fieldMul_xor_right]

theorem fieldMul_one_right (a : Byte) : fieldMul machineParams a 1 = a := by
  rw [fieldMul_comm, fieldMul_eq_polyMul, polyMul_one_left]

/-- The sentinel needs no case over the field: the product by zero is zero. -/
theorem rsFold_getElem_field (par : Vector Byte 32) (b : Byte) (k : Nat) (hk : k < 31) :
    (rsFold machineParams par b)[k] = par[k + 1] ^^^ fieldMul machineParams (b ^^^ par[0]) (genCoeff (k + 1)) := by
  rw [rsFold_getElem _ _ _ _ hk]
  show (if defaultLog (b ^^^ par[0]) = Config.sentinel then _ else _ ^^^ tap machineParams (defaultLog _) _) = _
  by_cases hzero : b ^^^ par[0] = 0
  · rw [if_pos ((defaultLog_eq_sentinel_iff _).mpr hzero), hzero, fieldMul_zero_left]
    exact BitVec.xor_zero.symm
  · rw [if_neg (mt (defaultLog_eq_sentinel_iff _).mp hzero), tap_eq_fieldMul hzero (by omega)]

theorem rsFold_last_field (par : Vector Byte 32) (b : Byte) : (rsFold machineParams par b)[31] = b ^^^ par[0] := by
  rw [rsFold_last]
  exact defaultAlog_defaultLog _

/-! ### Additivity (41 R70 (b)) -/

/-- The XOR of two banks, byte by byte. -/
def xorBanks (p q : Vector Byte 32) : Vector Byte 32 := Vector.zipWith (· ^^^ ·) p q

@[simp] theorem xorBanks_getElem (p q : Vector Byte 32) (k : Nat) (hk : k < 32) : (xorBanks p q)[k] = p[k] ^^^ q[k] :=
  Vector.getElem_zipWith hk

/-- One fold is additive in the pair of bank and byte. -/
theorem rsFold_xor (p q : Vector Byte 32) (a b : Byte) :
    rsFold machineParams (xorBanks p q) (a ^^^ b) = xorBanks (rsFold machineParams p a) (rsFold machineParams q b) := by
  have hfeedback : (a ^^^ b) ^^^ (xorBanks p q)[0] = (a ^^^ p[0]) ^^^ (b ^^^ q[0]) := by
    rw [xorBanks_getElem]
    ac_rfl
  ext1 k hk
  rcases eq_or_ne k 31 with rfl | hne
  · rw [xorBanks_getElem, rsFold_last_field, rsFold_last_field, rsFold_last_field, hfeedback]
  · have hlt : k < 31 := by omega
    rw [xorBanks_getElem, rsFold_getElem_field _ _ _ hlt, rsFold_getElem_field _ _ _ hlt,
      rsFold_getElem_field _ _ _ hlt, hfeedback, fieldMul_xor_left, xorBanks_getElem]
    ac_rfl

theorem foldl_rsFold_xor (a b : List Byte) (h : a.length = b.length) (p q : Vector Byte 32) :
    (xorBytes a b).foldl (rsFold machineParams) (xorBanks p q) =
      xorBanks (a.foldl (rsFold machineParams) p) (b.foldl (rsFold machineParams) q) := by
  induction a generalizing b p q with
  | nil =>
    obtain rfl := List.eq_nil_of_length_eq_zero h.symm
    rfl
  | cons x a ih =>
    obtain ⟨y, b, rfl⟩ := List.exists_cons_of_length_eq_add_one h.symm
    rw [xorBytes, List.zipWith_cons_cons, List.foldl_cons, rsFold_xor]
    exact ih b (Nat.succ.inj h) _ _

theorem xorBanks_zero : xorBanks (Vector.replicate 32 0) (Vector.replicate 32 0) = Vector.replicate 32 0 := by
  ext1 k hk
  simp

/-- Settles O25: both folds start from banks of zeros, whose XOR is the bank of zeros. -/
theorem parityIsAdditive : Obligations.ParityIsAdditive := by
  intro a b k hk hlen
  rw [← xorBanks_getElem]
  congr 1
  unfold parityOf
  conv_lhs => rw [← xorBanks_zero]
  exact foldl_rsFold_xor a b hlen _ _

/-! ### The Horner scheme (41 R69) -/

/-- The Horner scheme at `r` continued from `acc`. -/
def hornerFrom (r acc : Byte) (cs : List Byte) : Byte :=
  cs.foldl (fun acc c => fieldMul machineParams acc r ^^^ c) acc

theorem hornerFrom_cons (r acc c : Byte) (cs : List Byte) :
    hornerFrom r acc (c :: cs) = hornerFrom r (fieldMul machineParams acc r ^^^ c) cs := rfl

theorem hornerFrom_concat (r acc c : Byte) (cs : List Byte) :
    hornerFrom r acc (cs ++ [c]) = fieldMul machineParams (hornerFrom r acc cs) r ^^^ c := by
  rw [hornerFrom, List.foldl_concat, hornerFrom]

theorem hornerFrom_zeros (r : Byte) (n : Nat) : hornerFrom r 0 (List.replicate n 0) = 0 := by
  induction n with
  | zero => rfl
  | succ n ih =>
    rw [List.replicate_succ, hornerFrom_cons, fieldMul_zero_left, BitVec.xor_self]
    exact ih

theorem evalAt_append (r : Byte) (xs ys : List Byte) :
    evalAt machineParams r (xs ++ ys) = hornerFrom r (evalAt machineParams r xs) ys :=
  List.foldl_append

theorem hornerFrom_xor (r : Byte) (cs ds : List Byte) (h : cs.length = ds.length) (x y : Byte) :
    hornerFrom r (x ^^^ y) (xorBytes cs ds) = hornerFrom r x cs ^^^ hornerFrom r y ds := by
  induction cs generalizing ds x y with
  | nil =>
    obtain rfl := List.eq_nil_of_length_eq_zero h.symm
    rfl
  | cons c cs ih =>
    obtain ⟨d, ds, rfl⟩ := List.exists_cons_of_length_eq_add_one h.symm
    have hstep : fieldMul machineParams (x ^^^ y) r ^^^ (c ^^^ d) =
        (fieldMul machineParams x r ^^^ c) ^^^ (fieldMul machineParams y r ^^^ d) := by
      rw [fieldMul_xor_left]
      ac_rfl
    rw [hornerFrom_cons, hornerFrom_cons, ← ih ds (Nat.succ.inj h), ← hstep]
    rfl

theorem hornerFrom_mul (r f acc : Byte) (cs : List Byte) :
    hornerFrom r (fieldMul machineParams f acc) (cs.map (fieldMul machineParams f)) =
      fieldMul machineParams f (hornerFrom r acc cs) := by
  induction cs generalizing acc with
  | nil => rfl
  | cons c cs ih => rw [List.map_cons, hornerFrom_cons, hornerFrom_cons, ← ih, fieldMul_xor_right, fieldMul_assoc]

/-! ### Codewords vanish at the roots (41 R69) -/

/-- The coefficients of the generator below the leading one. -/
def genTail : List Byte := (List.range 32).map fun k => genCoeff (k + 1)

/-- Every root of 41 R62 is a root of the tabled generator, whose leading coefficient is 1: the table is evaluated at
each of the 32 roots. -/
theorem hornerFrom_genTail_at_root : ∀ i < 32, hornerFrom (generatorRoot machineParams i) 1 genTail = 0 := by
  decide +kernel

/-- A fold shifts the bank and adds the generator times the feedback (41 R69). -/
theorem rsFold_toList (par : Vector Byte 32) (b : Byte) :
    (rsFold machineParams par b).toList =
      xorBytes (par.toList.tail ++ [0]) (genTail.map (fieldMul machineParams (b ^^^ par[0]))) := by
  apply List.ext_getElem
  · simp [xorBytes, genTail]
  intro k hk _
  rw [Vector.length_toList] at hk
  rcases eq_or_ne k 31 with rfl | hne
  · simpa [xorBytes, genTail, genCoeff_last, rsFold_last_field] using (fieldMul_one_right _).symm
  · have hlt : k < 31 := by omega
    simp [xorBytes, genTail, rsFold_getElem_field _ _ _ hlt, hlt]

/-- One byte more keeps the value of message and bank at a root of the generator 0. -/
theorem hornerFrom_rsFold {r : Byte} (hroot : hornerFrom r 1 genTail = 0) (acc b : Byte) (par : Vector Byte 32)
    (h : hornerFrom r acc par.toList = 0) :
    hornerFrom r (fieldMul machineParams acc r ^^^ b) (rsFold machineParams par b).toList = 0 := by
  have hcons : par.toList = par[0] :: par.toList.tail := by
    simpa using (List.getElem_cons_drop (as := par.toList) (i := 0) (by simp)).symm
  have hacc : fieldMul machineParams acc r ^^^ b =
      (fieldMul machineParams acc r ^^^ par[0]) ^^^ fieldMul machineParams (b ^^^ par[0]) 1 := by
    rw [fieldMul_one_right, BitVec.xor_assoc, BitVec.xor_comm par[0], BitVec.xor_assoc b, BitVec.xor_self,
      BitVec.xor_zero]
  have hshift : hornerFrom r (fieldMul machineParams acc r ^^^ par[0]) (par.toList.tail ++ [0]) = 0 := by
    rw [hornerFrom_concat, ← hornerFrom_cons, ← hcons, h, fieldMul_zero_left]
    rfl
  have hgen : hornerFrom r (fieldMul machineParams (b ^^^ par[0]) 1)
      (genTail.map (fieldMul machineParams (b ^^^ par[0]))) = 0 := by
    rw [hornerFrom_mul, hroot, fieldMul_comm, fieldMul_zero_left]
  rw [rsFold_toList, hacc, hornerFrom_xor _ _ _ (by simp [genTail]), hshift, hgen]
  rfl

/-- Settles O26, by induction on the message, the last byte first. -/
theorem codewordVanishesAtTheGeneratorRoots : Obligations.CodewordVanishesAtTheGeneratorRoots := by
  intro message i hi
  have hroot := hornerFrom_genTail_at_root i hi
  rw [evalAt_append]
  induction message using List.reverseRecOn with
  | nil => exact (congrArg _ Vector.toList_replicate).trans (hornerFrom_zeros _ 32)
  | append_singleton message b ih =>
    have hparity : parityOf machineParams (message ++ [b]) = rsFold machineParams (parityOf machineParams message) b :=
      List.foldl_concat ..
    rw [hparity, evalAt_append]
    exact hornerFrom_rsFold hroot _ b _ ih

end Sys2Proof.Machine
end

section
/-! SUPPORT. The commands of the Reed-Solomon encoder (spec 41 R65 to R67): what each rule answers under its guards,
then what RS_RESET and RS_UPDATE leave, where RS_UPDATE and RS_RD trap, and what RS_RD returns (O19 to O22). -/

namespace Sys2Proof.Machine

/-! ### The rules under their guards -/

/-- With N_MAX = 8 every bank number of a command exists. -/
theorem noSuchBank_machineParams (b : BitVec 3) : noSuchBank machineParams b = false :=
  decide_eq_false (Nat.not_le_of_lt b.isLt)

theorem notAByte_eq_false {v : Half} (hv : v.toNat ≤ 255) : notAByte v = false := decide_eq_false (Nat.not_lt_of_le hv)

theorem rsResetRule_eq_ok (b : BitVec 3) (s : State) :
    rsResetRule machineParams b s = .ok (s.disturbBanks (putBank s.banks b.toNat freshBank), 0) := by
  rw [rsResetRule, noSuchBank_machineParams]
  rfl

section Guards

variable {b : BitVec 3} {v : Half} {i : BitVec 5} {s : State}

theorem rsUpdateRule_of_not_byte (hv : 255 < v.toNat) : rsUpdateRule machineParams b v s = .error .invalidArg := by
  simp [rsUpdateRule, noSuchBank_machineParams, (notAByte_iff v).mpr hv]

theorem rsUpdateRule_of_inactive (hv : v.toNat ≤ 255) (hact : (bankOf s.banks b.toNat).act = false) :
    rsUpdateRule machineParams b v s = .error .sequence := by
  simp [rsUpdateRule, noSuchBank_machineParams, notAByte_eq_false hv, hact]

theorem rsUpdateRule_of_full (hv : v.toNat ≤ 255) (hact : (bankOf s.banks b.toNat).act = true)
    (hcnt : (bankOf s.banks b.toNat).cnt = 223) : rsUpdateRule machineParams b v s = .error .sequence := by
  simp [rsUpdateRule, noSuchBank_machineParams, notAByte_eq_false hv, hact, hcnt, Config.bankCapacity]

theorem rsUpdateRule_of_space (hv : v.toNat ≤ 255) (hact : (bankOf s.banks b.toNat).act = true)
    (hcnt : (bankOf s.banks b.toNat).cnt ≠ 223) :
    rsUpdateRule machineParams b v s =
      .ok (s.disturbBanks (putBank s.banks b.toNat
        (updateBank machineParams (bankOf s.banks b.toNat) (BitVec.ofNat 8 v.toNat))), 0) := by
  rw [← lowByte_eq_ofNat]
  simp [rsUpdateRule, rsUpdate, noSuchBank_machineParams, notAByte_eq_false hv, hact, hcnt, Config.bankCapacity]

theorem rsRdRule_of_inactive (hact : (bankOf s.banks b.toNat).act = false) :
    rsRdRule machineParams b i s = .error .sequence := by
  simp [rsRdRule, noSuchBank_machineParams, hact]

theorem rsRdRule_of_active (hact : (bankOf s.banks b.toNat).act = true) :
    rsRdRule machineParams b i s = .ok (s, zextByte ((bankOf s.banks b.toNat).par[i.toNat]'i.isLt)) := by
  simp [rsRdRule, noSuchBank_machineParams, hact]

end Guards

/-! ### The commands as served -/

theorem exec_rsReset (b : BitVec 3) (s : State) :
    exec (.rsReset b) s = serve (.rsReset b) (rsResetRule machineParams b) s := rfl

theorem exec_rsUpdate (b : BitVec 3) (v : Half) (s : State) :
    exec (.rsUpdate b v) s = serve (.rsUpdate b v) (rsUpdateRule machineParams b v) s := rfl

theorem exec_rsRd (b : BitVec 3) (i : BitVec 5) (s : State) :
    exec (.rsRd b i) s = serve (.rsRd b i) (rsRdRule machineParams b i) s := rfl

/-- A command that replaces its bank by `k` clears FRAME_VALID and leaves every other bank and everything else (41 R65,
R66). -/
theorem serve_disturbBanks {i : Instr} {rule : State → Reply} {s : State} {b : BitVec 3} {k : Bank}
    (hf : s.fault = false) (h : rule s = .ok (s.disturbBanks (putBank s.banks b.toNat k), 0)) :
    ∃ t, serve i rule s = .next t ∧
      t = { s with banks := t.banks, frameValid := false, response := some (responseWord 0 0) } ∧
      bankOf t.banks b.toNat = k ∧ ∀ n, n ≠ b.toNat → bankOf t.banks n = bankOf s.banks n :=
  ⟨_, serve_of_ok i rule s _ _ hf h, rfl, bankOf_putBank_same _ _ _ (bankNumber_lt b),
    fun _ hn => bankOf_putBank_other _ _ _ _ (bankNumber_lt b) hn⟩

/-! ### RS_RESET (41 R63, R65) -/

/-- Settles O19: the written bank is the fresh one. -/
theorem rsResetZeroesTheBank : Obligations.RsResetZeroesTheBank := by
  intro s b hf
  obtain ⟨t, hexec, hframe, hbank, hothers⟩ := serve_disturbBanks (i := .rsReset b) hf (rsResetRule_eq_ok b s)
  refine ⟨t, (exec_rsReset b s).trans hexec, hframe, by rw [hbank]; rfl, by rw [hbank]; rfl, fun i hi => ?_, hothers⟩
  simp only [hbank, freshBank, Vector.getElem_replicate]

/-! ### RS_UPDATE (41 R64, R66) -/

/-- The parity of a fold with the default tables, in the words of 41 R64. -/
theorem rsFold_default (par : Vector Byte 32) (x fb : Byte) (hfb : fb = defaultLog (x ^^^ par[0])) :
    (rsFold machineParams par x)[31] = defaultAlog fb ∧
      ∀ (k : Nat) (h : k < 31), (rsFold machineParams par x)[k] =
        if fb = 255 then par[k + 1]
        else par[k + 1] ^^^ defaultAlog (BitVec.ofNat 8 ((fb.toNat + (defaultGen (k + 1)).toNat) % 255)) := by
  subst hfb
  refine ⟨rsFold_last _ _ _, fun k hk => ?_⟩
  rw [rsFold_getElem _ _ _ _ hk, tap_machineParams _ (by omega)]
  rfl

/-- Settles O20: the written bank is the updated one. -/
theorem rsUpdateFoldsOneByte : Obligations.RsUpdateFoldsOneByte := by
  intro s b v hf hv hact hcnt
  obtain ⟨t, hexec, hframe, hbank, hothers⟩ :=
    serve_disturbBanks (i := .rsUpdate b v) hf (rsUpdateRule_of_space hv hact hcnt)
  refine ⟨t, (exec_rsUpdate b v s).trans hexec, hframe, hothers, by rw [hbank]; exact hact, by rw [hbank]; rfl,
    fun fb hfb => ?_⟩
  simp only [hbank]
  exact rsFold_default _ _ fb hfb

/-! ### Traps (41 R66, R67; 60 R115) -/

/-- The record of an error on a word of format SV holds the opcode and the operand (30 R46, 60 R116). -/
theorem State.raise_formatSV (s : State) (e : ErrKind) (op : Byte) (b : BitVec 3) (v : Half) :
    s.raise e (op ++ 0#5 ++ b ++ v) = s.afterError e.code op v := by
  obtain ⟨hop, -, -, hv⟩ := (word_8_5_3_16_iff op 0#5 b v _).mp rfl
  rw [State.raise_eq_afterError, hop, hv]

/-- The low half of a word of format SI holds the byte number alone. -/
theorem State.raise_formatSI (s : State) (e : ErrKind) (op : Byte) (b : BitVec 3) (i : BitVec 5) :
    s.raise e (op ++ 0#5 ++ b ++ 0#11 ++ i) = s.afterError e.code op (i.setWidth 16) := by
  obtain ⟨hop, -, -, hz, hi⟩ := (word_8_5_3_11_5_iff op 0#5 b 0#11 i _).mp rfl
  have hlow : (op ++ 0#5 ++ b ++ 0#11 ++ i).extractLsb' 0 16 = i.setWidth 16 := by
    have happend : 0#11 ++ i = (op ++ 0#5 ++ b ++ 0#11 ++ i).extractLsb' 0 16 :=
      (append_eq_iff _ _ _).mpr ⟨by rw [extractLsb'_extractLsb' _ _ _ _ _ (by decide)]; exact hz,
        by rw [extractLsb'_extractLsb' _ _ _ _ _ (by decide)]; exact hi⟩
    rw [← happend, BitVec.setWidth_eq_append (by decide)]
    rfl
  rw [State.raise_eq_afterError, hop, hlow]

/-- An error of RS_UPDATE. -/
theorem exec_rsUpdate_of_error {b : BitVec 3} {v : Half} {s : State} (e : ErrKind) (hf : s.fault = false)
    (h : rsUpdateRule machineParams b v s = .error e) :
    exec (.rsUpdate b v) s = .next (s.afterError e.code 0x21 v) := by
  rw [exec_rsUpdate, serve_of_error _ _ _ e hf h]
  exact congrArg _ (State.raise_formatSV s e 0x21 b v)

/-- Settles O21, guard by guard. -/
theorem rsCommandsRefuseTheWrongOrder : Obligations.RsCommandsRefuseTheWrongOrder := by
  intro s b v i hf
  refine ⟨fun hv => ?_, fun hv hact => ?_, fun hv hact hcnt => ?_, fun hact => ?_⟩
  · exact exec_rsUpdate_of_error .invalidArg hf (rsUpdateRule_of_not_byte hv)
  · exact exec_rsUpdate_of_error .sequence hf (rsUpdateRule_of_inactive hv hact)
  · exact exec_rsUpdate_of_error .sequence hf (rsUpdateRule_of_full hv hact hcnt)
  · rw [exec_rsRd, serve_of_error _ _ _ .sequence hf (rsRdRule_of_inactive hact)]
    exact congrArg _ (State.raise_formatSI s .sequence 0x22 b i)

/-! ### RS_RD (41 R67) -/

/-- Settles O22: RS_RD has one guard, and its rule leaves the state. -/
theorem rsRdReturnsTheParityByte : Obligations.RsRdReturnsTheParityByte := by
  intro s b i hf hact
  rw [exec_rsRd]
  exact serve_of_ok _ _ s s _ hf (rsRdRule_of_active hact)

end Sys2Proof.Machine
end

section
/-! SUPPORT. The line code as a bit stream (spec 42 R74, R76, R79): the computed table is the printed one, every codeword
carries its imbalance over into RD, and the runs and the comma that no data stream holds (O29 to O32). A word of at most
ten bits that stands in a stream stands in one codeword or across the seam of two; so the absence of a word is a fact
about the codewords alone and about how they may begin and end at each disparity. -/

namespace Sys2Proof.Machine

/-! ### The default table (42 R74) -/

/-- Settles O29, by evaluating the three steps for the 256 bytes at each disparity. -/
theorem computedCodeIsThePrintedCode : Obligations.ComputedCodeIsThePrintedCode := by
  intro rd
  cases rd <;> decide +kernel

/-! ### Bits in transmission order (42 R73) -/

/-- The bits of a pattern, the highest first. -/
def bitsOf {w : Nat} (v : BitVec w) : List Bool := (List.range w).map v.getMsbD

theorem symbolBits_eq_bitsOf (x : Symbol) : symbolBits x = bitsOf x := by
  refine List.map_congr_left fun u hu => ?_
  simp [BitVec.getMsbD, List.mem_range.mp hu]

theorem bitsOf_append {m n : Nat} (a : BitVec m) (b : BitVec n) : bitsOf (a ++ b) = bitsOf a ++ bitsOf b := by
  simp only [bitsOf, List.range_add, List.map_append, List.map_map]
  congr 1
  · refine List.map_congr_left fun u hu => ?_
    simp [BitVec.getMsbD_append, List.mem_range.mp hu]
  · refine List.map_congr_left fun u _ => ?_
    simp [BitVec.getMsbD_append]

/-! ### Imbalance (42 R79 (a)) -/

/-- RD counts the bits sent: ones less zeros is twice its change. -/
def Tracks (rd : Disparity) (bits : List Bool) (rd' : Disparity) : Prop :=
  (bits.count true : Int) - (bits.count false : Int) = 2 * (disparityLevel rd' - disparityLevel rd)

theorem Tracks.nil (rd : Disparity) : Tracks rd [] rd := by simp [Tracks]

theorem Tracks.append {rd rd' rd'' : Disparity} {xs ys : List Bool} (hx : Tracks rd xs rd') (hy : Tracks rd' ys rd'') :
    Tracks rd (xs ++ ys) rd'' := by
  unfold Tracks at *
  simp only [List.count_append, Nat.cast_add]
  omega

/-- RD counts the bits of the row's pattern for `rd`. -/
def TracksRow {w : Nat} (rd : Disparity) (row : BitVec w × BitVec w) : Prop :=
  Tracks rd (bitsOf (pick row rd)) (afterPattern rd (pick row rd))

theorem tracksRow_six (rd : Disparity) : ∀ row ∈ sixRows, TracksRow rd row := by
  rw [← List.forall_iff_forall_mem]
  unfold TracksRow Tracks
  cases rd <;> decide +kernel

theorem tracksRow_four (rd : Disparity) : ∀ row ∈ fourAlternate :: fourRows, TracksRow rd row := by
  rw [← List.forall_iff_forall_mem]
  unfold TracksRow Tracks
  cases rd <;> decide +kernel

/-- A codeword is a pattern of the six-bit table and one of the four-bit table or its alternate row, the second taken at
the disparity that the first leaves (42 R74). -/
theorem defaultEncTab_rows (rd : Disparity) (b : Byte) :
    ∃ r6 ∈ sixRows, ∃ r4 ∈ fourAlternate :: fourRows, ∃ rd₁, rd₁ = afterPattern rd (pick r6 rd) ∧
      defaultEncTab rd b = (pick r6 rd ++ pick r4 rd₁, afterPattern rd₁ (pick r4 rd₁)) := by
  have hsix : (b.extractLsb' 0 5).toNat < sixRows.length := (b.extractLsb' 0 5).isLt
  have hfour : (b.extractLsb' 5 3).toNat < fourRows.length := (b.extractLsb' 5 3).isLt
  refine ⟨sixRows.getD (b.extractLsb' 0 5).toNat (0, 0), ?_, _, ?_, _, rfl, rfl⟩
  · rw [List.getD_eq_getElem _ _ hsix]
    exact List.getElem_mem hsix
  · split_ifs
    · exact List.mem_cons_self
    · rw [List.getD_eq_getElem _ _ hfour]
      exact List.mem_cons_of_mem _ (List.getElem_mem hfour)

theorem tracks_defaultEncTab (rd : Disparity) (b : Byte) :
    Tracks rd (symbolBits (defaultEncTab rd b).1) (defaultEncTab rd b).2 := by
  obtain ⟨r6, h6, r4, h4, rd₁, rfl, h⟩ := defaultEncTab_rows rd b
  rw [h, symbolBits_eq_bitsOf, bitsOf_append]
  exact (tracksRow_six rd r6 h6).append (tracksRow_four _ r4 h4)

/-- Settles O30, codeword by codeword. -/
theorem disparityCountsTheImbalance : Obligations.DisparityCountsTheImbalance := by
  intro rd bs
  show Tracks rd (streamBits (encodeBytes machineParams rd bs).1) (encodeBytes machineParams rd bs).2
  induction bs generalizing rd with
  | nil => exact .nil rd
  | cons b bs ih => exact (tracks_defaultEncTab rd b).append (ih _)

/-! ### Words in a stream -/

/-- Some codeword taken at `rd` begins with `v`. -/
def BeginsFrom (P : Params) (rd : Disparity) (v : List Bool) : Prop := ∃ b, v <+: symbolBits (P.encTab rd b).1

/-- Some codeword that leaves `rd` ends with `u`. -/
def EndsInto (P : Params) (rd : Disparity) (u : List Bool) : Prop :=
  ∃ rd₀ b, (P.encTab rd₀ b).2 = rd ∧ u <:+ symbolBits (P.encTab rd₀ b).1

theorem BeginsFrom.of_prefix {P : Params} {rd : Disparity} {v v' : List Bool} (h : BeginsFrom P rd v) (hv : v' <+: v) :
    BeginsFrom P rd v' := by
  obtain ⟨b, hb⟩ := h
  exact ⟨b, hv.trans hb⟩

theorem EndsInto.of_suffix {P : Params} {rd : Disparity} {u u' : List Bool} (h : EndsInto P rd u) (hu : u' <:+ u) :
    EndsInto P rd u' := by
  obtain ⟨rd₀, b, hrd, hb⟩ := h
  exact ⟨rd₀, b, hrd, hu.trans hb⟩

/-- A stream begins as its first codeword does. -/
theorem beginsFrom_of_prefix_stream {P : Params} {rd : Disparity} {bs : List Byte} {v : List Bool} (hv : v ≠ [])
    (hlen : v.length ≤ 10) (h : v <+: streamBits (encodeBytes P rd bs).1) : BeginsFrom P rd v := by
  cases bs with
  | nil => exact absurd (List.prefix_nil.mp h) hv
  | cons b bs => exact ⟨b, (List.isPrefix_append_of_length (by rwa [symbolBits_length])).mp h⟩

/-- A word in a stream stands in one codeword or across a seam, with a part on either side of it. -/
theorem infix_stream_cases {P : Params} {rd : Disparity} {bs : List Byte} {p : List Bool} (hp : p ≠ [])
    (hlen : p.length ≤ 10) (h : p <:+: streamBits (encodeBytes P rd bs).1) :
    (∃ rd₀ b, p <:+: symbolBits (P.encTab rd₀ b).1) ∨
      ∃ rd₀ u v, p = u ++ v ∧ u ≠ [] ∧ v ≠ [] ∧ EndsInto P rd₀ u ∧ BeginsFrom P rd₀ v := by
  induction bs generalizing rd with
  | nil => exact absurd (List.infix_nil.mp h) hp
  | cons b bs ih =>
    rcases List.infix_append_iff.mp h with hfirst | hrest | ⟨u, v, rfl, hu, hv⟩
    · exact .inl ⟨rd, b, hfirst⟩
    · exact ih hrest
    · rcases eq_or_ne u [] with rfl | hu₀
      · exact ih hv.isInfix
      rcases eq_or_ne v [] with rfl | hv₀
      · exact .inl ⟨rd, b, by simpa using hu.isInfix⟩
      have hvlen : v.length ≤ 10 := by rw [List.length_append] at hlen; omega
      exact .inr ⟨_, u, v, rfl, hu₀, hv₀, ⟨rd, b, rfl, hu⟩, beginsFrom_of_prefix_stream hv₀ hvlen hv⟩

/-! ### The words that no data stream holds (42 R79 (c), (d)) -/

/-- Six equal bits, and the two commas. -/
def absentWords : List (List Bool) :=
  [ List.replicate 6 true, List.replicate 6 false,
    [false, false, true, true, true, true, true], [true, true, false, false, false, false, false] ]

/-- The commas without their first bit. -/
def commaTails : List (List Bool) := [[false, true, true, true, true, true], [true, false, false, false, false, false]]

/-- Words with which no codeword taken at the disparity begins. -/
def absentBeginnings : Disparity → List (List Bool)
  | .neg => [true, true, true, true] :: [false, false, false] :: commaTails
  | .pos => [false, false, false, false] :: [true, true, true] :: commaTails

/-- Words with which no codeword that leaves the disparity ends. -/
def absentEndings : Disparity → List (List Bool)
  | .neg => [[true, true], [false, false, false, false], [true, true, false, false, false]]
  | .pos => [[false, false], [true, true, true, true], [false, false, true, true, true]]

/-- No beginning is longer than the six-bit pattern, so the rows of its table decide. -/
theorem not_beginsFrom_absent (rd : Disparity) : ∀ v ∈ absentBeginnings rd, ¬ BeginsFrom machineParams rd v := by
  have hrows : ∀ v ∈ absentBeginnings rd, v.length ≤ 6 ∧ ∀ row ∈ sixRows, ¬ v <+: bitsOf (pick row rd) := by
    simp only [← List.forall_iff_forall_mem (l := sixRows)]
    cases rd <;> decide +kernel
  rintro v hv ⟨b, hb⟩
  obtain ⟨hlen, hnot⟩ := hrows v hv
  obtain ⟨r6, h6, r4, -, rd₁, -, h⟩ := defaultEncTab_rows rd b
  change v <+: symbolBits (defaultEncTab rd b).1 at hb
  rw [h, symbolBits_eq_bitsOf, bitsOf_append] at hb
  exact hnot r6 h6 ((List.isPrefix_append_of_length (by simpa [bitsOf] using hlen)).mp hb)

theorem not_suffix_absent (rd : Disparity) : ∀ b, ∀ u ∈ absentEndings (defaultEncTab rd b).2,
    ¬ u <:+ symbolBits (defaultEncTab rd b).1 := by
  simp only [computedCodeIsThePrintedCode _ _]
  cases rd <;> decide +kernel

theorem not_endsInto_absent (rd : Disparity) : ∀ u ∈ absentEndings rd, ¬ EndsInto machineParams rd u := by
  rintro u hu ⟨rd₀, b, rfl, hb⟩
  exact not_suffix_absent rd₀ b u hu hb

theorem not_infix_codeword (rd : Disparity) : ∀ b, ∀ p ∈ absentWords, ¬ p <:+: symbolBits (defaultEncTab rd b).1 := by
  simp only [computedCodeIsThePrintedCode _ _]
  cases rd <;> decide +kernel

/-- Cut in two anywhere, an absent word ends its left part or begins its right part as no codeword does. -/
theorem absentWords_split (rd : Disparity) : ∀ p ∈ absentWords, ∀ k < p.length, 0 < k →
    (∃ u ∈ absentEndings rd, u <:+ p.take k) ∨ ∃ v ∈ absentBeginnings rd, v <+: p.drop k := by
  cases rd <;> decide

theorem absentWords_length : ∀ p ∈ absentWords, p ≠ [] ∧ p.length ≤ 10 := by decide

/-- An absent word is in no codeword, and the code allows none of its cuts at a seam. -/
theorem not_infix_stream {p : List Bool} (hp : p ∈ absentWords) (rd : Disparity) (bs : List Byte) :
    ¬ p <:+: streamBits (encodeBytes machineParams rd bs).1 := by
  intro h
  obtain ⟨hne, hlen⟩ := absentWords_length p hp
  rcases infix_stream_cases hne hlen h with ⟨rd₀, b, hb⟩ | ⟨rd₀, u, v, rfl, hu, hv, hends, hbegins⟩
  · exact not_infix_codeword rd₀ b p hp hb
  · have hsplit := absentWords_split rd₀ _ hp u.length
      (by simpa using List.length_pos_iff.mpr hv) (List.length_pos_iff.mpr hu)
    rw [List.take_left, List.drop_left] at hsplit
    rcases hsplit with ⟨u', hu', hsuffix⟩ | ⟨v', hv', hprefix⟩
    · exact not_endsInto_absent rd₀ u' hu' (hends.of_suffix hsuffix)
    · exact not_beginsFrom_absent rd₀ v' hv' (hbegins.of_prefix hprefix)

/-- Settles O31: six equal bits are an absent word, whichever the bit. -/
theorem dataStreamsHaveNoSixEqualBits : Obligations.DataStreamsHaveNoSixEqualBits := by
  intro rd bs x
  refine not_infix_stream ?_ rd bs
  cases x <;> decide

/-- Settles O32: both commas are absent words, and the control patterns are evaluated. -/
theorem commaOccursInNoDataStream : Obligations.CommaOccursInNoDataStream :=
  ⟨fun rd bs => ⟨not_infix_stream (by decide) rd bs, not_infix_stream (by decide) rd bs⟩, by decide, by decide⟩

end Sys2Proof.Machine
end

section
/-! SUPPORT. The commands of the line encoder (spec 42 R75 to R77): ENC looks a byte up for RD, refuses what is neither a
byte nor the marker, and ENC.EOF answers a pattern that holds a comma and so is no codeword (O27, O28). -/

namespace Sys2Proof.Machine

theorem exec_enc (v : Half) (s : State) : exec (.enc v) s = serve (.enc v) (encRule machineParams v) s := rfl

theorem exec_encEof (s : State) : exec .encEof s = serve .encEof eofRule s := rfl

theorem eofMarker_toNat : Config.eofMarker.toNat = 65535 := rfl

theorem encRule_of_byte (P : Params) {v : Half} (s : State) (hv : v.toNat ≤ 255) :
    encRule P v s =
      .ok (s.withRd (P.encTab s.rd (BitVec.ofNat 8 v.toNat)).2,
        zextSymbol (P.encTab s.rd (BitVec.ofNat 8 v.toNat)).1) := by
  have hmarker : v ≠ Config.eofMarker := by
    rintro rfl
    rw [eofMarker_toNat] at hv
    omega
  simp [encRule, notEncodable, notAByte_eq_false hv, hmarker, lowByte_eq_ofNat]

theorem encRule_of_not_byte (P : Params) {v : Half} (s : State) (hv : 255 < v.toNat) (hmarker : v ≠ Config.eofMarker) :
    encRule P v s = .error .invalidArg := by
  simp [encRule, notEncodable, (notAByte_iff v).mpr hv, hmarker]

/-- Settles O27: the entry of the computed table is the printed one. -/
theorem encReturnsTheCodeword : Obligations.EncReturnsTheCodeword := by
  intro s v hf
  rw [exec_enc]
  refine ⟨fun hv => ?_, fun hlow hhigh => ?_⟩
  · rw [serve_of_ok _ _ s _ _ hf (encRule_of_byte machineParams s hv), ← computedCodeIsThePrintedCode]
    rfl
  · have hmarker : v ≠ Config.eofMarker := by
      rintro rfl
      rw [eofMarker_toNat] at hhigh
      omega
    rw [serve_of_error _ _ s _ hf (encRule_of_not_byte machineParams s hlow hmarker)]
    exact congrArg _ (State.raise_formatV s .invalidArg 0x30 v)

theorem exec_encEof_of_no_fault {s : State} (hf : s.fault = false) :
    exec .encEof s = .next ((s.withRd s.rd.flip).respond (zextSymbol (kcomma s.rd))) :=
  (exec_encEof s).trans (serve_of_ok _ _ s _ _ hf rfl)

/-- A control pattern holds a comma, and no codeword does (42 R79 (c)). -/
theorem codeword_ne_kcomma (rd rd' : Disparity) (b : Byte) : (defaultEncTab rd b).1 ≠ kcomma rd' := by
  have hcomma : ∃ p ∈ absentWords, p <:+: symbolBits (kcomma rd') := by cases rd' <;> decide
  obtain ⟨p, hp, hin⟩ := hcomma
  exact fun h => not_infix_codeword rd b p hp (h ▸ hin)

/-- Settles O28. -/
theorem encEofReturnsTheCommaAndInvertsRd : Obligations.EncEofReturnsTheCommaAndInvertsRd := by
  refine ⟨rfl, fun s hf => ⟨fun hrd => ?_, fun hrd => ?_, fun rd b => ?_⟩⟩
  · rw [exec_encEof_of_no_fault hf, hrd]
    rfl
  · rw [exec_encEof_of_no_fault hf, hrd]
    rfl
  · rw [← computedCodeIsThePrintedCode]
    exact ⟨codeword_ne_kcomma rd .neg b, codeword_ne_kcomma rd .pos b⟩

end Sys2Proof.Machine
end

section
/-! SUPPORT. The commands of the frame buffers (spec 43 R80 to R88, R93) and SYM_RD (44 R96). A command whose one guard
is on its operand either completes or is E_INVALID_ARG with the record of its word, and the reads of what a producing
command left share one rule; with these, each command needs only what its rule writes (O33 to O41). -/

namespace Sys2Proof.Machine

/-! ### Errors on the command's own word (60 R116) -/

/-- An error raised by a command's rule, in the terms of the statements. -/
theorem serve_of_error_afterError {i : Instr} {rule : State → Reply} {s : State} {e : ErrKind} (hf : s.fault = false)
    (h : rule s = .error e) :
    serve i rule s = .next (s.afterError e.code (Laws.opcodeOfRow i) ((encode i).extractLsb' 0 16)) := by
  rw [serve_of_error i rule s e hf h, State.raise_eq_afterError, opcodeOf_encode]

/-- The record of an error on a word of format I holds the low half of the operand (30 R46). -/
theorem low_half_formatI (op : Byte) (k : BitVec 24) : (op ++ k).extractLsb' 0 16 = k.extractLsb' 0 16 := by
  calc (op ++ k).extractLsb' 0 16
    _ = ((op ++ k).extractLsb' 0 24).extractLsb' 0 16 := (extractLsb'_extractLsb' _ 0 24 0 16 (by decide)).symm
    _ = k.extractLsb' 0 16 := congrArg _ BitVec.extractLsb'_append_eq_right

/-! ### Rules under one bound, and rules that read what was produced -/

section Served

variable {i : Instr} {rule : State → Reply} {s u : State} {v : Half}

/-- A command whose one guard is that its operand lies below a bound. -/
theorem serve_bounded {outside : Bool} {bound k : Nat} (hout : outside = true ↔ bound ≤ k) (hf : s.fault = false)
    (hrule : rule s = if outside then .error .invalidArg else .ok (u, v)) :
    (k < bound → serve i rule s = .next (u.respond v)) ∧
    (bound ≤ k →
      serve i rule s = .next (s.afterError 2 (Laws.opcodeOfRow i) ((encode i).extractLsb' 0 16))) := by
  constructor
  · intro hk
    exact serve_of_ok i rule s u v hf (by rw [hrule, if_neg (mt hout.mp (Nat.not_le_of_lt hk))])
  · intro hk
    exact serve_of_error_afterError (e := .invalidArg) hf (by rw [hrule, if_pos (hout.mpr hk)])

/-- A command that reads element `k` of what was produced last: E_SEQUENCE comes before E_INVALID_ARG (60 R115). -/
theorem serve_producedRead {valid : Bool} {count k : Nat} (hf : s.fault = false)
    (hrule : rule s =
      if valid = false then .error .sequence else if count ≤ k then .error .invalidArg else .ok (s, v)) :
    (valid = true → k < count → serve i rule s = .next (s.completed v)) ∧
    (valid = true → count ≤ k →
      serve i rule s = .next (s.afterError 2 (Laws.opcodeOfRow i) ((encode i).extractLsb' 0 16))) ∧
    (valid = false →
      serve i rule s = .next (s.afterError 3 (Laws.opcodeOfRow i) ((encode i).extractLsb' 0 16))) := by
  refine ⟨fun hvalid hk => ?_, fun hvalid hk => ?_, fun hvalid => ?_⟩
  · exact serve_of_ok i rule s s v hf (by simp [hrule, hvalid, Nat.not_le_of_lt hk])
  · exact serve_of_error_afterError (e := .invalidArg) hf (by simp [hrule, hvalid, hk])
  · exact serve_of_error_afterError (e := .sequence) hf (by simp [hrule, hvalid])

end Served

/-! ### One byte of HDR or PAY (43 R80 to R83) -/

theorem exec_hdrWr (k : BitVec 12) (b : Byte) (s : State) (hf : s.fault = false) :
    (k.toNat < 6 → exec (.hdrWr k b) s = .next ((s.withHdr (Buf.write s.hdr k.toNat b)).respond 0)) ∧
    (6 ≤ k.toNat → exec (.hdrWr k b) s = .next (s.afterError 2 0x40 ((encode (.hdrWr k b)).extractLsb' 0 16))) :=
  serve_bounded (outsideHdr_iff _) hf rfl

theorem exec_payWr (k : BitVec 12) (b : Byte) (s : State) (hf : s.fault = false) :
    (k.toNat < 2048 → exec (.payWr k b) s = .next ((s.withPay (Buf.write s.pay k.toNat b)).respond 0)) ∧
    (2048 ≤ k.toNat → exec (.payWr k b) s = .next (s.afterError 2 0x42 ((encode (.payWr k b)).extractLsb' 0 16))) :=
  serve_bounded (outsidePay_iff _) hf rfl

theorem exec_hdrRd (k : BitVec 24) (s : State) (hf : s.fault = false) :
    (k.toNat < 6 → exec (.hdrRd k) s = .next (s.completed ((Buf.read s.hdr k.toNat).setWidth 16))) ∧
    (6 ≤ k.toNat → exec (.hdrRd k) s = .next (s.afterError 2 0x41 (k.extractLsb' 0 16))) := by
  rw [← low_half_formatI 0x41 k]
  exact serve_bounded (outsideHdr_iff _) hf rfl

theorem exec_payRd (k : BitVec 24) (s : State) (hf : s.fault = false) :
    (k.toNat < 2048 → exec (.payRd k) s = .next (s.completed ((Buf.read s.pay k.toNat).setWidth 16))) ∧
    (2048 ≤ k.toNat → exec (.payRd k) s = .next (s.afterError 2 0x43 (k.extractLsb' 0 16))) := by
  rw [← low_half_formatI 0x43 k]
  exact serve_bounded (outsidePay_iff _) hf rfl

/-- Settles O33: HDR after the command is one write of HDR before it. -/
theorem hdrWrWritesOneByte : Obligations.HdrWrWritesOneByte := by
  refine ⟨fun _ _ => rfl, fun s k b hf => ?_⟩
  obtain ⟨hinside, houtside⟩ := exec_hdrWr k b s hf
  exact ⟨fun hk => ⟨_, hinside hk, rfl, Buf.read_write_same _ _ _, Buf.read_write_other _ _ _⟩, houtside⟩

/-- Settles O34: PAY after the command is one write of PAY before it. -/
theorem payWrWritesOneByte : Obligations.PayWrWritesOneByte := by
  refine ⟨fun _ _ => rfl, fun s k b hf => ?_⟩
  obtain ⟨hinside, houtside⟩ := exec_payWr k b s hf
  exact ⟨fun hk => ⟨_, hinside hk, rfl, Buf.read_write_same _ _ _, Buf.read_write_other _ _ _⟩, houtside⟩

/-- Settles O35, one bounded read for each buffer. -/
theorem frameBufferReadsReturnTheByte : Obligations.FrameBufferReadsReturnTheByte := by
  intro s k hf
  obtain ⟨hhdr, hhdrOutside⟩ := exec_hdrRd k s hf
  exact ⟨hhdr, hhdrOutside, exec_payRd k s hf⟩

/-! ### Produced elements (43 R93, 44 R96) -/

/-- Settles O36: the two commands serve one rule, on their own flag, count and space. -/
theorem producedBufferReadsReturnTheElement : Obligations.ProducedBufferReadsReturnTheElement := by
  refine ⟨fun _ => ⟨rfl, rfl⟩, fun s k hf => ?_⟩
  have hwb := serve_producedRead (i := .wbRd k) (rule := wbRdRule k) hf rfl
  have hsym := serve_producedRead (i := .symRd k) (rule := symRdRule k) hf rfl
  rw [show (encode (.wbRd k)).extractLsb' 0 16 = _ from low_half_formatI 0x49 k] at hwb
  rw [show (encode (.symRd k)).extractLsb' 0 16 = _ from low_half_formatI 0x51 k] at hsym
  obtain ⟨hread, hpast, hnone⟩ := hwb
  exact ⟨hread, hpast, hnone, hsym⟩

/-! ### Both buffers (43 R84, R85) -/

/-- Settles O37: both spaces become empty. -/
theorem bufClrZeroesBothBuffers : Obligations.BufClrZeroesBothBuffers :=
  ⟨by decide, fun s hf => ⟨_, serve_of_ok .bufClr bufClrRule s _ _ hf rfl, rfl, Buf.read_nil, Buf.read_nil⟩⟩

/-- HDR_RESET from the parts of it that bytes 2, 1 and 0 carry. -/
theorem resetParts_append (x : BitVec 16) : x.extractLsb' 13 3 ++ x.extractLsb' 5 8 ++ x.extractLsb' 0 5 = x :=
  (append₃_eq_iff _ _ _ _).mpr ⟨rfl, rfl, rfl⟩

/-- The 25 bits of HDR_UPTIME from the parts of them that bytes 5, 4, 3 and 2 carry. -/
theorem uptimeParts_append (x : BitVec 25) :
    x.extractLsb' 21 4 ++ x.extractLsb' 13 8 ++ x.extractLsb' 5 8 ++ x.extractLsb' 0 5 = x :=
  (append₄_eq_iff _ _ _ _ _).mpr ⟨rfl, rfl, rfl, rfl⟩

/-- Taking a field out of its byte undoes the concatenation that packed it (43 R85). -/
theorem packedHeader_fields (c : Cfg) {byteAt : Nat → Byte} (h : ∀ k (hk : k < 6), byteAt k = (packedHeader c)[k]'hk) :
    (byteAt 0).extractLsb' 0 3 = c.hdrId ∧
    (byteAt 2).extractLsb' 0 3 ++ byteAt 1 ++ (byteAt 0).extractLsb' 3 5 = c.hdrReset ∧
    (byteAt 5).extractLsb' 0 4 ++ byteAt 4 ++ byteAt 3 ++ (byteAt 2).extractLsb' 3 5 =
      c.hdrUptimeHi ++ c.hdrUptimeLo ∧
    (byteAt 5).extractLsb' 4 4 = c.hdrType := by
  rw [h 0 (by decide), h 1 (by decide), h 2 (by decide), h 3 (by decide), h 4 (by decide), h 5 (by decide)]
  simp only [packedHeader, List.getElem_cons_zero, List.getElem_cons_succ, BitVec.extractLsb'_append_eq_left,
    BitVec.extractLsb'_append_eq_right]
  exact ⟨trivial, resetParts_append _, uptimeParts_append _, trivial⟩

/-- Settles O38: HDR holds the packed header below 6 and what it held above. -/
theorem hdrPackKeepsEveryField : Obligations.HdrPackKeepsEveryField := by
  refine ⟨by decide, fun s hf => ⟨_, serve_of_ok .hdrPack hdrPackRule s _ _ hf rfl, rfl, fun k hk => ?_, ?_⟩⟩
  · exact (Buf.read_fill _ _ k).trans (dif_neg (Nat.not_lt_of_le hk))
  · exact packedHeader_fields s.cfg fun k hk => (Buf.read_fill _ _ k).trans (dif_pos hk)

/-! ### The packers (43 R86 to R88) -/

theorem exec_payPackA (k v : BitVec 12) (s : State) (hf : s.fault = false) :
    (k.toNat + 1 < 2048 → exec (.payPackA k v) s = .next ((s.withPay (packA s.pay k.toNat v)).respond 0)) ∧
    (2048 ≤ k.toNat + 1 →
      exec (.payPackA k v) s = .next (s.afterError 2 0x45 ((encode (.payPackA k v)).extractLsb' 0 16))) :=
  serve_bounded (outsidePay_iff _) hf rfl

theorem exec_payPackB (k v : BitVec 12) (s : State) (hf : s.fault = false) :
    (k.toNat + 1 < 2048 → exec (.payPackB k v) s = .next ((s.withPay (packB s.pay k.toNat v)).respond 0)) ∧
    (2048 ≤ k.toNat + 1 →
      exec (.payPackB k v) s = .next (s.afterError 2 0x46 ((encode (.payPackB k v)).extractLsb' 0 16))) :=
  serve_bounded (outsidePay_iff _) hf rfl

section Packed

variable (pay : Buf 8) (k : Nat) (v : BitVec 12)

theorem read_packA_low : Buf.read (packA pay k v) k = v.extractLsb' 0 8 := by simp [read_packA]

theorem read_packA_high :
    Buf.read (packA pay k v) (k + 1) = (Buf.read pay (k + 1)).extractLsb' 4 4 ++ v.extractLsb' 8 4 := by
  simp [read_packA]

theorem read_packA_other {j : Nat} (hlow : j ≠ k) (hhigh : j ≠ k + 1) :
    Buf.read (packA pay k v) j = Buf.read pay j := by simp [read_packA, hlow.symm, hhigh.symm]

theorem read_packB_low :
    Buf.read (packB pay k v) k = v.extractLsb' 0 4 ++ (Buf.read pay k).extractLsb' 0 4 := by simp [read_packB]

theorem read_packB_high : Buf.read (packB pay k v) (k + 1) = v.extractLsb' 4 8 := by simp [read_packB]

theorem read_packB_other {j : Nat} (hlow : j ≠ k) (hhigh : j ≠ k + 1) :
    Buf.read (packB pay k v) j = Buf.read pay j := by simp [read_packB, hlow.symm, hhigh.symm]

end Packed

theorem low_nibble_append (x y : BitVec 4) : (x ++ y).extractLsb' 0 4 = y := BitVec.extractLsb'_append_eq_right

theorem high_nibble_append (x y : BitVec 4) : (x ++ y).extractLsb' 4 4 = x := BitVec.extractLsb'_append_eq_left

theorem nibble_append_byte (v : BitVec 12) : v.extractLsb' 8 4 ++ v.extractLsb' 0 8 = v :=
  (append_eq_iff (v.extractLsb' 8 4) (v.extractLsb' 0 8) v).mpr ⟨rfl, rfl⟩

theorem byte_append_nibble (v : BitVec 12) : v.extractLsb' 4 8 ++ v.extractLsb' 0 4 = v :=
  (append_eq_iff (v.extractLsb' 4 8) (v.extractLsb' 0 4) v).mpr ⟨rfl, rfl⟩

/-- Settles O39: the byte above is written as its own high nibble and the operand's. -/
theorem payPackAWritesLowByteThenNibble : Obligations.PayPackAWritesLowByteThenNibble := by
  refine ⟨fun _ _ => rfl, fun s k v hf => ?_⟩
  obtain ⟨hroom, hnoRoom⟩ := exec_payPackA k v s hf
  refine ⟨fun hk => ⟨_, hroom hk, rfl, read_packA_low _ _ _, ?_, ?_, fun j => read_packA_other _ _ _⟩, hnoRoom⟩
  · exact (congrArg _ (read_packA_high _ _ _)).trans (low_nibble_append _ _)
  · exact (congrArg _ (read_packA_high _ _ _)).trans (high_nibble_append _ _)

/-- Settles O40: the byte below is written as the operand's nibble and its own low one. -/
theorem payPackBWritesNibbleThenHighByte : Obligations.PayPackBWritesNibbleThenHighByte := by
  refine ⟨fun _ _ => rfl, fun s k v hf => ?_⟩
  obtain ⟨hroom, hnoRoom⟩ := exec_payPackB k v s hf
  refine ⟨fun hk => ⟨_, hroom hk, rfl, ?_, ?_, read_packB_high _ _ _, fun j => read_packB_other _ _ _⟩, hnoRoom⟩
  · exact (congrArg _ (read_packB_low _ _ _)).trans (high_nibble_append _ _)
  · exact (congrArg _ (read_packB_low _ _ _)).trans (low_nibble_append _ _)

/-- `pay'` holds the readings `p` and `q` in the three bytes from `k` on, and is `pay` elsewhere (43 R88). -/
def HoldsPair (pay pay' : Buf 8) (k : Nat) (p q : BitVec 12) : Prop :=
  (Buf.read pay' (k + 1)).extractLsb' 0 4 ++ Buf.read pay' k = p ∧
  Buf.read pay' (k + 2) ++ (Buf.read pay' (k + 1)).extractLsb' 4 4 = q ∧
  ∀ j, j < k ∨ k + 2 < j → Buf.read pay' j = Buf.read pay j

theorem packA_then_packB (pay : Buf 8) (k : Nat) (p q : BitVec 12) :
    HoldsPair pay (packB (packA pay k p) (k + 1) q) k p q := by
  refine ⟨?_, ?_, fun j hj => ?_⟩
  · rw [read_packB_low, low_nibble_append, read_packA_high, low_nibble_append,
      read_packB_other _ _ _ (by omega) (by omega), read_packA_low]
    exact nibble_append_byte p
  · rw [read_packB_high, read_packB_low, high_nibble_append]
    exact byte_append_nibble q
  · rw [read_packB_other _ _ _ (by omega) (by omega), read_packA_other _ _ _ (by omega) (by omega)]

theorem packB_then_packA (pay : Buf 8) (k : Nat) (p q : BitVec 12) :
    HoldsPair pay (packA (packB pay (k + 1) q) k p) k p q := by
  refine ⟨?_, ?_, fun j hj => ?_⟩
  · rw [read_packA_high, low_nibble_append, read_packA_low]
    exact nibble_append_byte p
  · rw [read_packA_high, high_nibble_append, read_packB_low, high_nibble_append,
      read_packA_other _ _ _ (by omega) (by omega), read_packB_high]
    exact byte_append_nibble q
  · rw [read_packA_other _ _ _ (by omega) (by omega), read_packB_other _ _ _ (by omega) (by omega)]

section Exec

variable {k v : BitVec 12} {s t : State} (hf : s.fault = false) (hk : k.toNat + 1 < 2048)

include hf hk

theorem pay_after_payPackA (h : exec (.payPackA k v) s = .next t) :
    t.fault = false ∧ t.pay = packA s.pay k.toNat v := by
  obtain ⟨hroom, -⟩ := exec_payPackA k v s hf
  obtain rfl := Host.Outcome.next.inj ((hroom hk).symm.trans h)
  exact ⟨hf, rfl⟩

theorem pay_after_payPackB (h : exec (.payPackB k v) s = .next t) :
    t.fault = false ∧ t.pay = packB s.pay k.toNat v := by
  obtain ⟨hroom, -⟩ := exec_payPackB k v s hf
  obtain rfl := Host.Outcome.next.inj ((hroom hk).symm.trans h)
  exact ⟨hf, rfl⟩

end Exec

/-- Settles O41: each packer keeps the nibble of the shared byte that the other writes. -/
theorem packedPairIsRecoveredInEitherOrder : Obligations.PackedPairIsRecoveredInEitherOrder := by
  intro s t u k p q hf hk horder
  have hnext : (k + 1).toNat = k.toNat + 1 := by rw [BitVec.toNat_add]; exact Nat.mod_eq_of_lt (by simp; omega)
  show HoldsPair s.pay u.pay k.toNat p q
  rcases horder with ⟨ht, hu⟩ | ⟨ht, hu⟩
  · obtain ⟨htFault, htPay⟩ := pay_after_payPackA hf (by omega) ht
    obtain ⟨-, huPay⟩ := pay_after_payPackB htFault (by omega) hu
    rw [huPay, htPay, hnext]
    exact packA_then_packB s.pay k.toNat p q
  · obtain ⟨htFault, htPay⟩ := pay_after_payPackB hf (by omega) ht
    obtain ⟨-, huPay⟩ := pay_after_payPackA htFault (by omega) hu
    rw [huPay, htPay, hnext]
    exact packB_then_packA s.pay k.toNat p q

end Sys2Proof.Machine
end

section
/-! SUPPORT. FRAME_ENC (spec 43 R89, R90): the three tests in terms of the registers, the state it leaves, and the
number of bytes each sub-frame folds (O42 to O44). -/

namespace Sys2Proof.Machine

/-! ### The rule -/

/-- The three tests of FRAME_ENC (43 R89). -/
theorem Geometry.inconsistent_iff (g : Geometry) :
    g.inconsistent = true ↔
      (g.skip = true ∧ (g.c ≤ g.sc ∨ g.n ≤ g.ss)) ∨ g.w < g.h + g.p ∨ (g.h < g.w ∧ g.p = 0) := by
  simp [Geometry.inconsistent, or_assoc]

theorem geometry_skip_iff (c : Cfg) : (geometry c).skip = true ↔ c.skipEn = 1 := beq_iff_eq

theorem skipEn_toNat_eq_one_iff (x : BitVec 1) : x.toNat = 1 ↔ x = 1 := BitVec.toNat_inj (y := 1)

theorem geometry_skip_toNat (c : Cfg) : (geometry c).skip.toNat = c.skipEn.toNat := by
  have hbit : ∀ x : BitVec 1, (x == 1).toNat = x.toNat := by decide
  exact hbit c.skipEn

/-- The hole in terms of the registers (43 R90). -/
theorem geometry_hole (c : Cfg) :
    (geometry c).hole =
      if c.skipEn = 1 then c.skipCol.toNat * c.nSf.toNat + c.skipSf.toNat else c.nSf.toNat * c.cols.toNat := by
  simp only [Geometry.hole, geometry_skip_iff, Nat.mul_comm (geometry c).c]
  rfl

/-- The state FRAME_ENC leaves when it does not trap (43 R89). -/
def State.withEncodedFrame (s : State) (g : Geometry) : State :=
  let done := distribute machineParams (frameByte g s.hdr s.pay) g.slots 0 (resetBanks s.banks g.n)
  ((s.withBanks done.1).withFrame (Buf.fill s.wb done.2) g.w g.n).withFrameValid true

theorem frameEncRule_eq (s : State) :
    frameEncRule machineParams s =
      if (geometry s.cfg).inconsistent then .error .config
      else .ok (s.withEncodedFrame (geometry s.cfg), lowHalf (geometry s.cfg).w) := rfl

theorem exec_frameEnc_of_inconsistent {s : State} (hf : s.fault = false) (h : (geometry s.cfg).inconsistent = true) :
    exec .frameEnc s = .next (s.afterError 4 0x48 0) :=
  serve_of_error_afterError (i := .frameEnc) (e := .config) hf (by rw [frameEncRule_eq, if_pos h])

theorem exec_frameEnc_of_fit {s : State} (hf : s.fault = false) (h : (geometry s.cfg).inconsistent = false) :
    exec .frameEnc s =
      .next ((s.withEncodedFrame (geometry s.cfg)).respond (lowHalf (geometry s.cfg).w)) :=
  serve_of_ok .frameEnc _ s _ _ hf (by rw [frameEncRule_eq, if_neg (by simp [h])])

/-! ### The frame it writes -/

section Encoded

variable (s : State) {g : Geometry} (hfit : g.inconsistent = false)

include hfit

theorem bankOf_withEncodedFrame (hn : g.n ≤ 8) (sub : Nat) :
    bankOf (s.withEncodedFrame g).banks sub =
      if sub < g.n then
        encodedBank machineParams (foldedBy (frameByte g s.hdr s.pay) g.w g.n g.hole sub)
      else bankOf s.banks sub :=
  bankOf_encodedFrame g hfit hn _ _ sub

theorem read_withEncodedFrame (k : Nat) :
    Buf.read (s.withEncodedFrame g).wb k = if k < g.w then frameByte g s.hdr s.pay k else Buf.read s.wb k := by
  show Buf.read (Buf.fill s.wb _) k = _
  simp [Buf.read_fill, distribute_bytes, g.slots_length hfit]

/-- The bytes of WB dealt to a sub-frame are the frame's. -/
theorem foldedBy_withEncodedFrame (sub : Nat) :
    foldedBy (Buf.read (s.withEncodedFrame g).wb) g.w g.n g.hole sub =
      foldedBy (frameByte g s.hdr s.pay) g.w g.n g.hole sub :=
  foldedBy_congr (fun k hk => by rw [read_withEncodedFrame s hfit, if_pos hk]) _ _ _

end Encoded

/-- Settles O43: the hypothesis is the failure of one of the three tests. -/
theorem frameEncRefusesInconsistentRegisters : Obligations.FrameEncRefusesInconsistentRegisters := by
  rintro s n c h p sk w hf rfl rfl rfl rfl rfl rfl hbad
  refine exec_frameEnc_of_inconsistent hf ((Geometry.inconsistent_iff _).mpr ?_)
  rw [geometry_skip_iff, Geometry.w, geometry_skip_toNat, ← skipEn_toNat_eq_one_iff]
  exact hbad

/-- Settles O42: the hypotheses are the three tests passed, and the reads are those of the frame written. -/
theorem frameEncWritesTheFrame : Obligations.FrameEncWritesTheFrame := by
  rintro s n c h p sk w hf rfl rfl rfl rfl rfl hw hn hskip hroom hpayload
  have hw : w = (geometry s.cfg).w := by rw [hw, Geometry.w, geometry_skip_toNat]; rfl
  subst hw
  have hfit : (geometry s.cfg).inconsistent = false := by
    rw [← Bool.not_eq_true, Geometry.inconsistent_iff, geometry_skip_iff, ← skipEn_toNat_eq_one_iff]
    rintro (⟨hsk, hout⟩ | hlong | ⟨hshort, hp⟩)
    · obtain ⟨hcol, hsf⟩ := hskip hsk
      exact hout.elim (Nat.not_le_of_lt hcol) (Nat.not_le_of_lt hsf)
    · exact Nat.not_lt_of_le hroom hlong
    · exact hpayload hshort hp
  refine ⟨_, exec_frameEnc_of_fit hf hfit, rfl, fun m hm => ?_, fun k hk => ?_, fun k hk => ?_⟩
  · exact (bankOf_withEncodedFrame s hfit hn m).trans (if_neg (Nat.not_lt_of_le hm))
  · exact (read_withEncodedFrame s hfit k).trans (if_pos hk)
  · exact (read_withEncodedFrame s hfit k).trans (if_neg (Nat.not_lt_of_le hk))

/-! ### How many bytes a sub-frame folds (43 R90) -/

theorem slotGrid_eq_product (c n : Nat) : slotGrid c n = List.range c ×ˢ List.range n := rfl

theorem nodup_slotGrid (c n : Nat) : (slotGrid c n).Nodup := List.nodup_range.product List.nodup_range

theorem mem_slotGrid {c n i sub : Nat} : (i, sub) ∈ slotGrid c n ↔ i < c ∧ sub < n := by
  rw [slotGrid_eq_product, List.mem_product, List.mem_range, List.mem_range]

/-- Each column of the grid has one slot of a sub-frame. -/
theorem countP_slotGrid (c : Nat) {n sub : Nat} (hsub : sub < n) :
    (slotGrid c n).countP (fun slot => slot.2 == sub) = c := by
  have hcolumn : (List.range n).count sub = 1 := List.count_eq_one_of_mem List.nodup_range (List.mem_range.mpr hsub)
  calc (slotGrid c n).countP (fun slot => slot.2 == sub)
    _ = ((List.range c).map fun _ => (List.range n).count sub).sum := by
      rw [slotGrid, List.countP_flatMap]
      exact congrArg List.sum (List.map_congr_left fun _ _ => List.countP_map)
    _ = c := by simp [hcolumn]

/-- The slots are the grid, with the skipped slot erased when there is one. -/
theorem Geometry.slots_eq_erase (g : Geometry) :
    g.slots = if g.skip then (slotGrid g.c g.n).erase (g.sc, g.ss) else slotGrid g.c g.n := by
  rw [g.slots_eq_filter]
  cases hskip : g.skip with
  | false => simp
  | true =>
    rw [(nodup_slotGrid g.c g.n).erase_eq_filter]
    rfl

theorem Geometry.countP_slots (g : Geometry) (hfit : g.inconsistent = false) {sub : Nat} (hsub : sub < g.n) :
    g.slots.countP (fun slot => slot.2 == sub) = if g.skip = true ∧ sub = g.ss then g.c - 1 else g.c := by
  rw [g.slots_eq_erase]
  cases hskip : g.skip with
  | false => simp [countP_slotGrid g.c hsub]
  | true =>
    have hmem : (g.sc, g.ss) ∈ slotGrid g.c g.n := mem_slotGrid.mpr (g.skip_inside hfit hskip)
    rw [if_pos rfl, List.countP_erase, countP_slotGrid g.c hsub]
    by_cases hss : sub = g.ss
    · simp [hmem, hss]
    · simp [hss, Ne.symm hss]

theorem foldedBy_length (g : Geometry) (hfit : g.inconsistent = false) (byteAt : Nat → Byte) {sub : Nat}
    (hsub : sub < g.n) :
    (foldedBy byteAt g.w g.n g.hole sub).length = if g.skip = true ∧ sub = g.ss then g.c - 1 else g.c := by
  rw [← dealtTo_slots g hfit, dealtTo_length, g.countP_slots hfit hsub]

/-- Settles O44: FAULT = 0 afterwards means that the tests passed, the skipped slot is the hole of the geometry, and each
bank is the one that has folded its own bytes of WB. -/
theorem subFramesFoldTheirSlots : Obligations.SubFramesFoldTheirSlots := by
  rintro s t n c z hf hexec ht rfl rfl hn hz sub hsub
  have hfit : (geometry s.cfg).inconsistent = false := by
    by_contra hbad
    rw [exec_frameEnc_of_inconsistent hf (by simpa using hbad)] at hexec
    obtain rfl := Host.Outcome.next.inj hexec
    simp [State.afterError, hf] at ht
  rw [exec_frameEnc_of_fit hf hfit] at hexec
  obtain rfl := Host.Outcome.next.inj hexec
  rw [← geometry_hole] at hz
  subst hz
  have hsub : sub < (geometry s.cfg).n := hsub
  have hbank : bankOf (s.withEncodedFrame (geometry s.cfg)).banks sub = encodedBank machineParams
      (foldedBy (Buf.read (s.withEncodedFrame (geometry s.cfg)).wb) (geometry s.cfg).w (geometry s.cfg).n
        (geometry s.cfg).hole sub) := by
    rw [bankOf_withEncodedFrame s hfit hn, if_pos hsub, foldedBy_withEncodedFrame s hfit]
  refine ⟨hbank, ?_⟩
  calc (bankOf (s.withEncodedFrame (geometry s.cfg)).banks sub).cnt
    _ = if (geometry s.cfg).skip = true ∧ sub = (geometry s.cfg).ss then (geometry s.cfg).c - 1
        else (geometry s.cfg).c := by rw [hbank]; exact foldedBy_length _ hfit _ hsub
    _ = if s.cfg.skipEn = 1 ∧ sub = s.cfg.skipSf.toNat then s.cfg.cols.toNat - 1 else s.cfg.cols.toNat := by
      simp only [geometry_skip_iff]
      rfl

end Sys2Proof.Machine
end

section
/-! SUPPORT. SYM_BUILD (spec 44 R94, R95): the byte fed at each index, the disparity at which it is encoded, and the
stream of symbols in terms of both (O45). -/

namespace Sys2Proof.Machine

/-! ### The line encoder over an indexed sequence (42 R78) -/

/-- The disparity at which byte `k` of the sequence `fed` is encoded, from disparity `rd` on. -/
def disparityAt (P : Params) (rd : Disparity) (fed : Nat → Byte) (k : Nat) : Disparity :=
  (List.range k).foldl (fun rd j => (P.encTab rd (fed j)).2) rd

theorem disparityAt_succ (P : Params) (rd : Disparity) (fed : Nat → Byte) (k : Nat) :
    disparityAt P rd fed (k + 1) = (P.encTab (disparityAt P rd fed k) (fed k)).2 := by
  simp only [disparityAt, List.range_succ, List.foldl_append, List.foldl_cons, List.foldl_nil]

/-- The codeword of byte `k` of the sequence `fed`, at its disparity. -/
def symbolAt (P : Params) (rd : Disparity) (fed : Nat → Byte) (k : Nat) : Symbol :=
  (P.encTab (disparityAt P rd fed k) (fed k)).1

/-- Each byte is encoded at the disparity that the bytes before it leave. -/
theorem encodeBytes_map_range (P : Params) (rd : Disparity) (fed : Nat → Byte) (n : Nat) :
    encodeBytes P rd ((List.range n).map fed) =
      ((List.range n).map (symbolAt P rd fed), disparityAt P rd fed n) := by
  induction n with
  | zero => rfl
  | succ n ih =>
    rw [List.range_succ, List.map_append, List.map_append, encodeBytes_append, ih, disparityAt_succ]
    rfl

/-! ### The bytes fed (44 R94, R95) -/

/-- Byte `k` that SYM_BUILD feeds: a written byte, or the parity byte at its place among the parity bytes. -/
def fedByte (s : State) (k : Nat) : Byte :=
  if k < s.wCount then Buf.read s.wb k
  else parityByte s.banks ((k - s.wCount) % s.frameN) ((k - s.wCount) / s.frameN)

/-- The parity bytes stand in the grid of parity index and sub-frame as the slots of a frame do in theirs. -/
theorem parityBytes_eq (s : State) :
    parityBytes s = (List.range (32 * s.frameN)).map (fun j => parityByte s.banks (j % s.frameN) (j / s.frameN)) :=
  calc parityBytes s
    _ = (slotGrid 32 s.frameN).map (fun place => parityByte s.banks place.2 place.1) := by
      simp only [parityBytes, slotGrid, List.map_flatMap, List.map_map, Function.comp_def]
    _ = _ := by rw [slotGrid_eq, List.map_map]; rfl

theorem written_append_parity_eq (s : State) :
    writtenBytes s ++ parityBytes s = (List.range (s.wCount + 32 * s.frameN)).map (fedByte s) := by
  rw [List.range_add, List.map_append, List.map_map, parityBytes_eq, writtenBytes]
  congr 1
  · exact List.map_congr_left fun k hk => (if_pos (List.mem_range.mp hk)).symm
  · exact List.map_congr_left fun j _ => by simp [fedByte]

/-! ### SYM_BUILD (44 R94) -/

/-- The state SYM_BUILD leaves when it feeds the first `n` bytes of the sequence `fed`. -/
def State.withStream (s : State) (fed : Nat → Byte) (n : Nat) : State :=
  (s.withRd (disparityAt machineParams s.rd fed n)).withSymbols
    (Buf.fill s.sym ((List.range n).map (symbolAt machineParams s.rd fed))) n

theorem read_withStream (s : State) (fed : Nat → Byte) (n k : Nat) :
    Buf.read (s.withStream fed n).sym k =
      if k < n then symbolAt machineParams s.rd fed k else Buf.read s.sym k := by
  show Buf.read (Buf.fill s.sym _) k = _
  simp [Buf.read_fill]

theorem symBuildRule_eq (s : State) :
    symBuildRule machineParams s =
      if s.frameValid = false then .error .sequence
      else .ok (s.withStream (fedByte s) (s.wCount + 32 * s.frameN), lowHalf (s.wCount + 32 * s.frameN)) := by
  simp only [symBuildRule, written_append_parity_eq, encodeBytes_map_range, List.length_map, List.length_range]
  rfl

theorem exec_symBuild_of_no_frame {s : State} (hf : s.fault = false) (hvalid : s.frameValid = false) :
    exec .symBuild s = .next (s.afterError 3 0x50 0) :=
  serve_of_error_afterError (i := .symBuild) (e := .sequence) hf (by rw [symBuildRule_eq, if_pos hvalid])

theorem exec_symBuild_of_frame {s : State} (hf : s.fault = false) (hvalid : s.frameValid = true) :
    exec .symBuild s =
      .next ((s.withStream (fedByte s) (s.wCount + 32 * s.frameN)).respond
        (lowHalf (s.wCount + 32 * s.frameN))) :=
  serve_of_ok .symBuild _ s _ _ hf (by rw [symBuildRule_eq, if_neg (by simp [hvalid])])

/-- Settles O45: the sequence and the walk of RD that the statement names are `fedByte` and `disparityAt`. -/
theorem symBuildSerializesTheFrame : Obligations.SymBuildSerializesTheFrame := by
  refine ⟨rfl, ?_⟩
  rintro s fed rdAt n hf hfed hrd rfl
  obtain rfl : fed = fedByte s := funext hfed
  obtain rfl : rdAt = disparityAt machineParams s.rd (fedByte s) := funext hrd
  refine ⟨fun hvalid => ?_, exec_symBuild_of_no_frame hf⟩
  refine ⟨_, exec_symBuild_of_frame hf hvalid, rfl, fun k hk => ?_, fun k hk => ?_⟩
  · exact (read_withStream s _ _ k).trans (if_pos hk)
  · exact (read_withStream s _ _ k).trans (if_neg (Nat.not_lt_of_le hk))

end Sys2Proof.Machine
end

section
/-! SUPPORT. MOD_RUN (spec 45 R97 to R100): the bits of the cycle by index, the run after each bit in closed form, a
sample being the value it was written with, ramped by each reversal in reach; and the reads of the samples (R104, R105)
(O46 to O50). -/

namespace Sys2Proof.Machine

/-! ### The bits of the cycle (45 R97) -/

/-- The bits of a stream stand in the grid of symbol and bit as the slots of a frame do in theirs. -/
theorem flatMap_symbolBits_read (sym : Buf 10) (n : Nat) :
    (List.range n).flatMap (fun k => symbolBits (Buf.read sym k)) =
      (List.range (n * 10)).map (fun j => (Buf.read sym (j / 10)).getLsbD (9 - j % 10)) :=
  calc (List.range n).flatMap (fun k => symbolBits (Buf.read sym k))
    _ = (slotGrid n 10).map (fun place => (Buf.read sym place.1).getLsbD (9 - place.2)) := by
      simp only [symbolBits, slotGrid, List.map_flatMap, List.map_map, Function.comp_def]
    _ = _ := by rw [slotGrid_eq, List.map_map]; rfl

theorem cycleBits_eq (s : State) : cycleBits s = (List.range (cycleLength s)).map (cycleBit s) := by
  rw [cycleBits, cycleLength, flatMap_symbolBits_read, syncSequence, Nat.mul_comm s.symCount, List.range_add,
    List.map_append, List.map_map]
  congr 1
  · exact List.map_congr_left fun t ht => (if_pos (List.mem_range.mp ht)).symm
  · exact List.map_congr_left fun j _ => by simp [cycleBit]

/-! ### MOD_RUN (45 R99) -/

/-- The run of a whole cycle. -/
def cycleRun (s : State) : Run :=
  modulate machineParams s.cfg (cycleBits s) { out := [], ctr := 0, phase := s.phase, rev := 0 }

/-- The state MOD_RUN leaves when the run `m` is what it produces. -/
def State.withRun (s : State) (m : Run) : State :=
  (s.withSamples (Buf.fill s.smp m.out.reverse) m.ctr).withPhase m.phase m.rev

theorem modRunRule_eq (s : State) :
    modRunRule machineParams s =
      if s.symValid = false then .error .sequence
      else if 2 ^ 23 < sampleTotal s then .error .config
      else .ok (s.withRun (cycleRun s), lowHalf (cycleRun s).ctr) := rfl

section Exec

variable {s : State} (hf : s.fault = false)

include hf

theorem exec_modRun_of_no_stream (hvalid : s.symValid = false) : exec .modRun s = .next (s.afterError 3 0x60 0) :=
  serve_of_error_afterError (i := .modRun) (e := .sequence) hf (by rw [modRunRule_eq, if_pos hvalid])

theorem exec_modRun_of_too_long (hvalid : s.symValid = true) (hlong : 2 ^ 23 < sampleTotal s) :
    exec .modRun s = .next (s.afterError 4 0x60 0) :=
  serve_of_error_afterError (i := .modRun) (e := .config) hf
    (by rw [modRunRule_eq, if_neg (by simp [hvalid]), if_pos hlong])

theorem exec_modRun_of_fit (hvalid : s.symValid = true) (hfit : sampleTotal s ≤ 2 ^ 23) :
    exec .modRun s = .next ((s.withRun (cycleRun s)).respond (lowHalf (cycleRun s).ctr)) :=
  serve_of_ok .modRun _ s _ _ hf
    (by rw [modRunRule_eq, if_neg (by simp [hvalid]), if_neg (Nat.not_lt_of_le hfit)])

/-- What MOD_RUN leaves of a cycle that fits. -/
theorem eq_of_exec_modRun {t : State} (hvalid : s.symValid = true) (hfit : sampleTotal s ≤ 2 ^ 23)
    (h : exec .modRun s = .next t) : t = (s.withRun (cycleRun s)).respond (lowHalf (cycleRun s).ctr) :=
  Host.Outcome.next.inj (h.symm.trans (exec_modRun_of_fit hf hvalid hfit))

end Exec

/-- Settles O46: the run of the cycle has as many samples as CTR counts, and the buffer is filled with them. -/
theorem modRunProducesTheCycle : Obligations.ModRunProducesTheCycle := by
  rintro s total hf rfl
  obtain ⟨hlength, hctr, -⟩ := modulate_cycle s (m := cycleRun s) rfl
  refine ⟨fun hvalid hfit => ?_, exec_modRun_of_no_stream hf, exec_modRun_of_too_long hf⟩
  refine ⟨_, exec_modRun_of_fit hf hvalid hfit, ?_, fun c hc => ?_⟩
  · rw [hctr]
    simp only [State.withRun, hctr]
    rfl
  · have hpast : ¬ c < (cycleRun s).out.reverse.length := by rw [hlength]; exact Nat.not_lt_of_le hc
    exact (Buf.read_fill _ _ _).trans (dif_neg hpast)

/-! ### Runs in closed form -/

/-- The run that has produced the samples `value 0` to `value (n - 1)`. -/
def Run.holding (value : Nat → Int) (n : Nat) (p : Phase) (r : Nat) : Run :=
  { out := (List.range n).reverse.map (fun c => toSample (value c)), ctr := n, phase := p, rev := r }

section Holding

variable {value value' : Nat → Int} {n : Nat} (p : Phase) (r : Nat)

theorem Run.holding_congr (h : ∀ c, c < n → value c = value' c) :
    Run.holding value n p r = Run.holding value' n p r := by
  have hout : (List.range n).reverse.map (fun c => toSample (value c)) =
      (List.range n).reverse.map (fun c => toSample (value' c)) :=
    List.map_congr_left fun c hc => by rw [h c (by simpa using hc)]
  rw [Run.holding, hout, Run.holding]

/-- The loop over the samples of a bit goes on with the samples that its function gives them. -/
theorem emit_holding {f : Nat → Int} {q : Nat} (h : ∀ c, n ≤ c → c < n + q → f c = value c) :
    emit f q (Run.holding value n p r) = Run.holding value (n + q) p r := by
  induction q generalizing n with
  | zero => rfl
  | succ q ih =>
    have hstep : { Run.holding value n p r with
        out := toSample (f n) :: (Run.holding value n p r).out, ctr := n + 1 } =
        Run.holding value (n + 1) p r := by
      simp [Run.holding, List.range_succ, h n (Nat.le_refl n) (by omega)]
    calc emit f (q + 1) (Run.holding value n p r)
      _ = emit f q (Run.holding value (n + 1) p r) := congrArg (emit f q) hstep
      _ = Run.holding value (n + (q + 1)) p r := by
        rw [ih fun c hc hc' => h c (by omega) (by omega), Nat.add_right_comm, Nat.add_assoc]

/-- The value of a sample when a reversal comes after `n` samples (45 R99 (e)). -/
def smoothedValue (P : Params) (S n : Nat) (value : Nat → Int) (c : Nat) : Int :=
  if n ≤ c + S then P.ramp (value c) (n - c) S else value c

/-- What a reversal does to the samples that fit their 16 bits (45 R99 (d), (e)). -/
theorem reverse_holding (P : Params) (S : Nat) (hvalue : ∀ c, (toSample (value c)).toInt = value c) :
    reverse P S (Run.holding value n p r) = Run.holding (smoothedValue P S n value) n p.flip (r + 1) := by
  have hout : attenuate P S 1 (Run.holding value n p r).out =
      (Run.holding (smoothedValue P S n value) n p.flip (r + 1)).out := by
    refine List.ext_getElem? fun k => ?_
    rw [attenuate_getElem?]
    by_cases hk : k < n
    · have hdistance : n - (n - 1 - k) = 1 + k := by omega
      have hreach : n ≤ n - 1 - k + S ↔ 1 + k ≤ S := by omega
      simp [Run.holding, hk, smoothedValue, hvalue, hdistance, hreach, apply_ite toSample]
    · simp [Run.holding, hk]
  rw [reverse, hout]
  rfl

/-- Below its count, SMP reads what the run produced (45 R99). -/
theorem read_withRun_holding (s : State) {c : Nat} (hc : c < n) :
    Buf.read (s.withRun (Run.holding value n p r)).smp c = toSample (value c) := by
  show Buf.read (Buf.fill s.smp _) c = _
  simp [Buf.read_fill, Run.holding, hc]

end Holding

theorem toInt_toSample {x : Int} (hmin : -32768 ≤ x) (hmax : x ≤ 32767) : (toSample x).toInt = x :=
  BitVec.toInt_ofInt_eq_self (by decide) (by simpa using hmin) (by simpa using Int.lt_add_one_of_le hmax)

/-- A sample of the period of bit `n` is owned by that bit (45 R99 (a)). -/
theorem owner_eq {c n spb : Nat} (hlow : n * spb ≤ c) (hhigh : c < n * spb + spb) : c / spb = n :=
  Nat.div_eq_of_lt_le hlow (by rwa [Nat.succ_mul])

/-! ### FSK (45 R99, R100 (e)) -/

/-- Sample `c` of an FSK cycle. -/
def fskSample (s : State) (c : Nat) : Int := tone (cycleBit s (c / s.cfg.spb.toNat)) c

theorem foldl_fskBit (s : State) (n : Nat) :
    ((List.range n).map (cycleBit s)).foldl (fskBit machineParams s.cfg.spb.toNat)
        { out := [], ctr := 0, phase := s.phase, rev := 0 } =
      Run.holding (fskSample s) (n * s.cfg.spb.toNat) s.phase 0 := by
  induction n with
  | zero => simp [Run.holding]
  | succ n ih =>
    rw [List.range_succ, List.map_append, List.foldl_append, ih, Nat.succ_mul]
    refine emit_holding _ _ fun c hlow hhigh => ?_
    rw [fskSample, owner_eq hlow hhigh]
    rfl

theorem cycleRun_of_fsk {s : State} (hmode : s.cfg.mode = 0) :
    cycleRun s = Run.holding (fskSample s) (sampleTotal s) s.phase 0 := by
  rw [cycleRun, modulate, if_pos hmode, cycleBits_eq, foldl_fskBit]
  rfl

/-- Settles O47: the closed form of an FSK run, whose tones fit a sample. -/
theorem fskSamplesAreTones : Obligations.FskSamplesAreTones := by
  intro s t hf hvalid hmode hfit hexec
  obtain rfl := eq_of_exec_modRun hf hvalid hfit hexec
  rw [cycleRun_of_fsk hmode]
  refine ⟨rfl, rfl, fun c hc => ?_⟩
  obtain ⟨hmin, hmax⟩ := tone_bounds (cycleBit s (c / s.cfg.spb.toNat)) c
  calc (Buf.read (s.withRun (Run.holding (fskSample s) (sampleTotal s) s.phase 0)).smp c).toInt
    _ = (toSample (fskSample s c)).toInt := congrArg BitVec.toInt (read_withRun_holding _ _ s hc)
    _ = fskSample s c := toInt_toSample hmin hmax

/-! ### Reversals (45 R100 (b), (c)) -/

theorem zerosBefore_succ (s : State) (n : Nat) :
    zerosBefore s (n + 1) = zerosBefore s n + if cycleBit s n then 0 else 1 := by
  cases h : cycleBit s n <;> simp [zerosBefore, List.range_succ, List.filter_append, h]

theorem phase_flip_flip (p : Phase) : p.flip.flip = p := by cases p <;> rfl

theorem phaseAfter_succ (p : Phase) (n : Nat) : phaseAfter p (n + 1) = (phaseAfter p n).flip := by
  rcases Nat.mod_two_eq_zero_or_one n with h | h
  · simp [phaseAfter, h, Nat.add_mod]
  · simp [phaseAfter, h, Nat.add_mod, phase_flip_flip]

/-! ### BPSK samples (45 R99 (d), (e), R100 (d)) -/

/-- Sample `c` of a BPSK cycle as its own bit produces it. -/
def hardSample (s : State) (c : Nat) : Int :=
  (phaseAfter s.phase (zerosBefore s (c / s.cfg.spb.toNat + 1))).sign * carrier c

/-- Sample `c` of a BPSK cycle after the reversals of the first `n` bits. -/
def bpskSample (s : State) (n c : Nat) : Int :=
  ((List.range n).filter (attenuates s c)).foldl (rampBefore s c) (hardSample s c)

theorem attenuates_iff (s : State) (c t : Nat) :
    attenuates s c t = true ↔
      cycleBit s t = false ∧ c < t * s.cfg.spb.toNat ∧ t * s.cfg.spb.toNat ≤ c + s.cfg.smaller.toNat := by
  simp [attenuates]

theorem bpskSample_succ (s : State) (n c : Nat) :
    bpskSample s (n + 1) c =
      if attenuates s c n then rampBefore s c (bpskSample s n c) n else bpskSample s n c := by
  cases h : attenuates s c n <;> simp [bpskSample, List.range_succ, List.filter_append, h]

/-- The reversals up to a sample's own bit come before it. -/
theorem bpskSample_own (s : State) {n c : Nat} (h : n * s.cfg.spb.toNat ≤ c) :
    bpskSample s (n + 1) c = hardSample s c := by
  have hnone : (List.range (n + 1)).filter (attenuates s c) = [] := by
    refine List.filter_eq_nil_iff.mpr fun t ht hatt => ?_
    obtain ⟨-, hbefore, -⟩ := (attenuates_iff s c t).mp hatt
    have : t * s.cfg.spb.toNat ≤ n * s.cfg.spb.toNat := Nat.mul_le_mul_right _ (by simpa [Nat.lt_succ_iff] using ht)
    omega
  rw [bpskSample, hnone, List.foldl_nil]

theorem foldl_rampBefore_natAbs_le (s : State) (c : Nat) (ts : List Nat) (v : Int) :
    (ts.foldl (rampBefore s c) v).natAbs ≤ v.natAbs := by
  induction ts generalizing v with
  | nil => exact Nat.le_refl _
  | cons t ts ih => exact (ih _).trans (ramp_natAbs_le _ _ _)

theorem foldl_rampBefore_eq_zero_or_sign_eq (s : State) (c : Nat) (ts : List Nat) (v : Int) :
    ts.foldl (rampBefore s c) v = 0 ∨ (ts.foldl (rampBefore s c) v).sign = v.sign := by
  induction ts generalizing v with
  | nil => exact .inr rfl
  | cons t ts ih =>
    have hstep : rampBefore s c v t = 0 ∨ (rampBefore s c v t).sign = v.sign := ramp_eq_zero_or_sign_eq v _ _
    rcases hstep with hzero | hsign
    · rw [List.foldl_cons, hzero]
      exact .inl (Int.natAbs_eq_zero.mp (Nat.le_zero.mp (foldl_rampBefore_natAbs_le s c ts 0)))
    · exact (ih (rampBefore s c v t)).imp_right fun h => h.trans hsign

theorem natAbs_phase_sign (p : Phase) : p.sign.natAbs = 1 := by cases p <;> rfl

theorem hardSample_natAbs_le (s : State) (c : Nat) : (hardSample s c).natAbs ≤ 32767 := by
  obtain ⟨hmin, hmax⟩ := carrier_bounds c
  rw [hardSample, Int.natAbs_mul, natAbs_phase_sign]
  omega

theorem toInt_bpskSample (s : State) (n c : Nat) : (toSample (bpskSample s n c)).toInt = bpskSample s n c := by
  have hbound : (bpskSample s n c).natAbs ≤ 32767 :=
    (foldl_rampBefore_natAbs_le s c _ _).trans (hardSample_natAbs_le s c)
  exact toInt_toSample (by omega) (by omega)

/-! ### BPSK runs (45 R99) -/

/-- The run after the first `n` bits of a BPSK cycle. -/
def bpskRun (s : State) (n : Nat) : Run :=
  Run.holding (bpskSample s n) (n * s.cfg.spb.toNat) (phaseAfter s.phase (zerosBefore s n)) (zerosBefore s n)

/-- What bit `n` does before its own samples. -/
theorem reverse_bpskRun (s : State) (n : Nat) :
    (if cycleBit s n then bpskRun s n else reverse machineParams s.cfg.smaller.toNat (bpskRun s n)) =
      Run.holding (bpskSample s (n + 1)) (n * s.cfg.spb.toNat) (phaseAfter s.phase (zerosBefore s (n + 1)))
        (zerosBefore s (n + 1)) := by
  cases hbit : cycleBit s n with
  | true =>
    have hsame : bpskSample s (n + 1) = bpskSample s n := funext fun c => by
      rw [bpskSample_succ, if_neg (by simp [attenuates, hbit])]
    simp [hsame, zerosBefore_succ, hbit, bpskRun]
  | false =>
    have hvalue : ∀ c, c < n * s.cfg.spb.toNat →
        smoothedValue machineParams s.cfg.smaller.toNat (n * s.cfg.spb.toNat) (bpskSample s n) c =
          bpskSample s (n + 1) c := fun c hc => by
      simp only [bpskSample_succ, attenuates_iff, hbit, hc, true_and]
      rfl
    have hzeros : zerosBefore s (n + 1) = zerosBefore s n + 1 := by simp [zerosBefore_succ, hbit]
    rw [if_neg Bool.false_ne_true, bpskRun, reverse_holding _ _ _ _ (toInt_bpskSample s n), hzeros, phaseAfter_succ]
    exact Run.holding_congr _ _ hvalue

theorem bpskBit_bpskRun (s : State) (n : Nat) :
    bpskBit machineParams s.cfg.spb.toNat s.cfg.smaller.toNat (bpskRun s n) (cycleBit s n) = bpskRun s (n + 1) := by
  rw [bpskBit, reverse_bpskRun, bpskRun, Nat.succ_mul]
  refine emit_holding _ _ fun c hlow hhigh => ?_
  rw [bpskSample_own s hlow, hardSample, owner_eq hlow hhigh]
  rfl

theorem foldl_bpskBit (s : State) (n : Nat) :
    ((List.range n).map (cycleBit s)).foldl (bpskBit machineParams s.cfg.spb.toNat s.cfg.smaller.toNat)
        { out := [], ctr := 0, phase := s.phase, rev := 0 } = bpskRun s n := by
  induction n with
  | zero => simp [bpskRun, Run.holding, zerosBefore, phaseAfter]
  | succ n ih =>
    rw [List.range_succ, List.map_append, List.foldl_append, ih]
    exact bpskBit_bpskRun s n

theorem cycleRun_of_bpsk {s : State} (hmode : s.cfg.mode = 1) : cycleRun s = bpskRun s (cycleLength s) := by
  rw [cycleRun, modulate, if_neg (by simp [hmode]), cycleBits_eq, foldl_bpskBit]

/-- Settles O48: the closed form of a BPSK run counts the 0 bits. -/
theorem bpskReversesOncePerZeroBit : Obligations.BpskReversesOncePerZeroBit := by
  intro s t hf hvalid hmode hfit hexec
  obtain rfl := eq_of_exec_modRun hf hvalid hfit hexec
  rw [cycleRun_of_bpsk hmode]
  exact ⟨rfl, rfl⟩

/-! ### The reversals in reach of a sample (45 R99 (e)) -/

theorem mem_attenuatingBits {s : State} {c t : Nat} :
    t ∈ attenuatingBits s c ↔ t < cycleLength s ∧ cycleBit s t = false ∧ c < t * s.cfg.spb.toNat ∧
      t * s.cfg.spb.toNat ≤ c + s.cfg.smaller.toNat := by
  rw [attenuatingBits, List.mem_filter, List.mem_range, attenuates_iff]

theorem nodup_attenuatingBits (s : State) (c : Nat) : (attenuatingBits s c).Nodup := List.nodup_range.filter _

theorem attenuatingBits_eq_singleton {s : State} {c j : Nat} (h : ∀ t, t ∈ attenuatingBits s c ↔ t = j) :
    attenuatingBits s c = [j] :=
  List.perm_singleton.mp ((List.perm_ext_iff_of_nodup (nodup_attenuatingBits s c) (List.nodup_singleton j)).mpr
    fun t => (h t).trans List.mem_singleton.symm)

/-- Settles O49: the closed form of a BPSK run, then the list of reversals in reach when it has one or no member. -/
theorem bpskSamplesFollowThePhase : Obligations.BpskSamplesFollowThePhase := by
  intro s t hard hf hvalid hmode hfit hexec hhard c hc
  have ht : t.smp = (s.withRun (bpskRun s (cycleLength s))).smp := by
    rw [eq_of_exec_modRun hf hvalid hfit hexec, cycleRun_of_bpsk hmode]
    rfl
  obtain rfl : hard = hardSample s := funext hhard
  have hsample : (Buf.read t.smp c).toInt = (attenuatingBits s c).foldl (rampBefore s c) (hardSample s c) := by
    rw [ht, bpskRun, read_withRun_holding _ _ s hc]
    exact toInt_bpskSample s _ c
  rw [hsample]
  refine ⟨rfl, fun j hj hzero hafter hreach honly => ?_, fun hnone => ?_, foldl_rampBefore_natAbs_le _ _ _ _,
    foldl_rampBefore_eq_zero_or_sign_eq _ _ _ _⟩
  · have hone : attenuatingBits s c = [j] := attenuatingBits_eq_singleton fun k => by
      rw [mem_attenuatingBits]
      refine ⟨fun ⟨hk, hkzero, hkafter, hkreach⟩ => honly k hk hkzero hkafter hkreach, ?_⟩
      rintro rfl
      exact ⟨hj, hzero, hafter, hreach⟩
    rw [hone]
    rfl
  · have hempty : attenuatingBits s c = [] := List.eq_nil_iff_forall_not_mem.mpr fun k hk => by
      obtain ⟨hlt, hkzero, hkafter, hkreach⟩ := mem_attenuatingBits.mp hk
      exact Nat.not_lt_of_le hkreach (hnone k hlt hkzero hkafter)
    rw [hempty]
    rfl

/-! ### Reading the samples (45 R104, R105) -/

theorem sampleByte_even (smp : Buf 16) (k : Nat) : sampleByte smp (2 * k) = (Buf.read smp k).extractLsb' 0 8 := by
  simp [sampleByte]

theorem sampleByte_odd (smp : Buf 16) (k : Nat) :
    sampleByte smp (2 * k + 1) = (Buf.read smp k).extractLsb' 8 8 := by
  simp [sampleByte, Nat.mul_add_div]

/-- Settles O50: the two commands serve one rule, SMP_RDB on twice the count. -/
theorem sampleReadsAreLittleEndian : Obligations.SampleReadsAreLittleEndian := by
  refine ⟨fun _ => ⟨rfl, rfl⟩, fun s i hf => ?_⟩
  have hsample := serve_producedRead (i := .smpRd i) (rule := smpRdRule i) hf rfl
  have hbyte := serve_producedRead (i := .smpRdb i) (rule := smpRdbRule i) hf rfl
  rw [show (encode (.smpRd i)).extractLsb' 0 16 = _ from low_half_formatI 0x61 i] at hsample
  rw [show (encode (.smpRdb i)).extractLsb' 0 16 = _ from low_half_formatI 0x62 i] at hbyte
  obtain ⟨hread, hpast, hnone⟩ := hsample
  obtain ⟨hreadByte, hpastByte, hnoneByte⟩ := hbyte
  refine ⟨hread, hpast, hnone, fun hvalid k hk hi => ?_, fun hvalid k hk hi => ?_, hpastByte, hnoneByte⟩
  · rw [← sampleByte_even, ← hi]
    exact hreadByte hvalid (by omega)
  · rw [← sampleByte_odd, ← hi]
    exact hreadByte hvalid (by omega)

end Sys2Proof.Machine
end

section
/-! SUPPORT. NOP (spec 46 R106): served in the faulted state as in any other, its rule answers 0 from the state it was
given. Settles O9. -/

namespace Sys2Proof.Machine

/-- NOP and CFG_RD do not look at FAULT: the rule's result is answered whatever it is (60 R117). -/
theorem serveAlways_of_ok {i : Instr} {rule : State → Reply} {s u : State} {v : Half} (h : rule s = .ok (u, v)) :
    serveAlways i rule s = .next (u.respond v) := by
  rw [serveAlways, h, answer]

theorem exec_nop (s : State) : exec .nop s = serveAlways .nop nopRule s := rfl

/-- Settles O9: NOP is always served, and its rule leaves the state. -/
theorem nopRespondsZero : Obligations.NopRespondsZero := by
  refine ⟨by decide, fun s => ?_⟩
  have hrule : nopRule s = .ok (s, 0) := rfl
  rw [exec_nop, serveAlways_of_ok hrule]
  rfl

end Sys2Proof.Machine
end

section
/-! SUPPORT. What the host presents decides how a step ends: nothing, the hardware reset, or a word (spec 60 R115 to
R117, 70 R126, R127). Settles O3, O4, O52, O53, O55 and O58. -/

namespace Sys2Proof.Machine

/-! ### One step, by what is presented (00 R5, 70 R126) -/

/-- With nothing presented the machine waits (60 R125). -/
theorem step_idle {s : State} (hin : s.inbox = []) : step s = .next s := by
  rw [step, fetch_idle s hin]

/-- The hardware reset does not look at the state it is applied to (70 R126). -/
theorem step_hardReset {s : State} {rest : List HostInput} (hin : s.inbox = .hardReset :: rest) :
    step s = .next (State.reset.withInbox rest) := by
  rw [step, fetch_hardReset s rest hin]
  rfl

theorem step_illegal {s : State} {c : Word} {rest : List HostInput} {e : IllegalWord}
    (hin : s.inbox = .command c :: rest) (hd : decode c = .error e) :
    step s = execIllegal c (s.withInbox rest) := by
  rw [step, fetch_illegal s c e rest hin hd]

/-- How a presented word is answered. An error is raised on that very word: it is the encoding of the command that it
decodes to (30 R50). -/
theorem step_presented {s t : State} {c : Word} {rest : List HostInput} (hin : s.inbox = .command c :: rest)
    (h : step s = .next t) : Raised (s.withInbox rest) c t ∨ ∃ i, Completed i (s.withInbox rest) t := by
  cases hd : decode c with
  | ok i =>
    rw [stepRunsTheDecodedCommand s c rest i hin hd] at h
    rw [← encode_of_decode hd]
    exact (exec_ends i _ t h).imp_right (⟨i, ·⟩)
  | error e =>
    rw [step_illegal hin hd] at h
    exact .inl (execIllegal_ends c _ t h)

/-- Settles O55: waiting, the reset, a command and an illegal word each have a next state. -/
theorem stepNeverStops : Obligations.StepNeverStops := by
  refine ⟨fun s => ?_, fun s => step_idle⟩
  match hin : s.inbox with
  | [] => exact ⟨_, step_idle hin⟩
  | .hardReset :: rest => exact ⟨_, step_hardReset hin⟩
  | .command c :: rest =>
    match hd : decode c with
    | .ok i =>
      rw [stepRunsTheDecodedCommand s c rest i hin hd]
      exact exec_next i _
    | .error e => exact ⟨_, step_illegal hin hd⟩

/-! ### Reset (70 R126, R127) -/

/-- Settles O3. -/
theorem hardResetRestoresTheResetState : Obligations.HardResetRestoresTheResetState :=
  fun _ _ hin => step_hardReset hin

theorem bankOf_reset (n : Nat) : bankOf State.reset.banks n = Bank.initial := by
  by_cases hn : n < 8 <;> simp [bankOf, State.reset, hn]

/-- Settles O4: every bank is the initial one, every index of HDR and PAY reads 0, and the rest are the fields of the
reset state. -/
theorem resetStateHoldsTheSpecValues : Obligations.ResetStateHoldsTheSpecValues := by
  refine ⟨fun n _ => ?banks, rfl, fun i => Buf.read_nil i, fun i => Buf.read_nil i, ?fields⟩
  case banks =>
    rw [bankOf_reset]
    exact ⟨rfl, rfl⟩
  case fields => decide

/-- Settles O58: the bases of the inductions of O59 and O60. -/
theorem resetMeetsTheInvariants : Obligations.ResetMeetsTheInvariants := ⟨reset_inv, reset_frameConsistent⟩

/-! ### Errors (60 R116) -/

/-- A completed command answers status 0 (30 R48). -/
theorem Completed.status_eq_zero {i : Instr} {s t : State} {w : Word} (h : Completed i s t)
    (hw : t.response = some w) : w.extractLsb' 24 8 = 0 := by
  obtain ⟨u, v, -, -, rfl⟩ := h
  obtain rfl : responseWord 0 v = w := Option.some.inj hw
  exact responseWord_status 0 v

/-- The response word of an error is its code above zeros (60 R116). -/
theorem responseWord_zero_result (st : Byte) : responseWord st 0 = st ++ 0#24 := by
  rw [responseWord, BitVec.append_assoc]
  rfl

/-- Settles O52: a word answered an error has not completed, so the error was raised on it. -/
theorem errorChangesNothingButTheRecord : Obligations.ErrorChangesNothingButTheRecord := by
  intro s t c w rest hin h hw hstatus
  rcases step_presented hin h with ⟨e, -, rfl⟩ | ⟨i, hdone⟩
  · obtain rfl : responseWord e.code 0 = w := Option.some.inj hw
    rw [responseWord_status]
    refine ⟨responseWord_zero_result e.code, ?_⟩
    rw [State.raise_eq_afterError]
    rfl
  · exact absurd (hdone.status_eq_zero hw) hstatus

/-! ### The faulted state (60 R117) -/

/-- Every command but NOP and CFG_RD is served by `serve`, which tests FAULT before the command's rule. -/
theorem exec_of_fault {i : Instr} {s : State} (hf : s.fault = true) (hnop : i ≠ .nop) (hrd : ∀ n, i ≠ .cfgRd n) :
    exec i s = .next (s.raise .faulted (encode i)) := by
  cases i with
  | nop => exact absurd rfl hnop
  | cfgRd n => exact absurd rfl (hrd n)
  | _ => exact serve_of_fault _ _ s hf

/-- The numbers below 0x1B and those of the eight RS_STAT registers are assigned (10 R27). -/
theorem regOfNumber_assigned (n : Byte) (h : n.toNat ≤ 0x1A ∨ (0x20 ≤ n.toNat ∧ n.toNat ≤ 0x27)) :
    ∃ r, regOfNumber machineParams n = some r := by
  have hnMax : machineParams.nMax = 8 := rfl
  unfold regOfNumber
  split
  case h_28 =>
    refine ⟨_, if_pos ?_⟩
    grind
  all_goals exact ⟨_, rfl⟩

/-- Settles O53: the clauses are `serve`, NOP, CFG_RD of an assigned register, and the frozen machine of O54. -/
theorem faultedStateServesNopAndCfgRdOnly : Obligations.FaultedStateServesNopAndCfgRdOnly := by
  refine ⟨fun i s hf hnop hrd => ?refused, fun s _ => ?nop, fun s n _ hn => ?cfgRd, fun s t hf hport h => ?step⟩
  case refused =>
    rw [exec_of_fault hf hnop hrd, State.raise_of_fault _ _ _ hf]
    rfl
  case nop =>
    obtain ⟨-, hserved⟩ := nopRespondsZero
    exact hserved s
  case cfgRd =>
    obtain ⟨r, hr⟩ := regOfNumber_assigned n hn
    exact ⟨_, exec_cfgRd_assigned n s r hr⟩
  case step =>
    have hfrozen := congrArg State.fault (faultedMachineIsFrozen s t hf hport h)
    exact hfrozen.trans hf

end Sys2Proof.Machine
end
